-- ==== Sys2Proof/Word.lean ====
section
/-! DEFINITION. The word types of the PBC: 32-bit registers (10_state.md R20), bytes (00_scope.md R11), byte offsets of the
4096-byte register window (20_memory.md R70), and the six-character string a register pair holds (20_memory.md R75). -/

namespace Sys2Proof

/-- The 32 bits of a register, as an access moves them (10_state.md R20, 20_memory.md R71). -/
abbrev Word := BitVec 32

/-- One ASCII character (00_scope.md R11) or an 8-bit field. -/
abbrev Byte := BitVec 8

/-- A byte offset in the register window, 0x000 to 0xFFF (20_memory.md R70). -/
abbrev Offset := BitVec 12

/-- Six characters, as a register pair `*_LO`, `*_HI` holds them (20_memory.md R75): `c0` is character 0. -/
structure Str6 where
  c0 : Byte
  c1 : Byte
  c2 : Byte
  c3 : Byte
  c4 : Byte
  c5 : Byte
  deriving DecidableEq, Repr

end Sys2Proof
end

