-- ==== Sys2Proof/Syntax.lean ====
section
/-! DEFINITION. The commands of the PBC, one constructor per row of spec/opcode_table.json (30_encoding.md R91). A command has no
operand field: every operand is a fixed register (30_encoding.md R90, R100). -/

namespace Sys2Proof

/-- The eleven commands of 30_encoding.md R91, in the table's order. -/
inductive Instr where
  /-- NOP, OPC 0x00 (43_scheduler.md R285). -/
  | nop
  /-- LOCATE, OPC 0x01 (40_locator.md R120). -/
  | locate
  /-- WSPR_ENCODE, OPC 0x02 (41_wspr_encoder.md R140). -/
  | wsprEncode
  /-- U4B_ENC_CALL, OPC 0x03 (42_u4b_codec.md R190). -/
  | u4bEncCall
  /-- U4B_ENC_ENG, OPC 0x04 (42_u4b_codec.md R198). -/
  | u4bEncEng
  /-- U4B_DEC_CALL, OPC 0x05 (42_u4b_codec.md R216). -/
  | u4bDecCall
  /-- U4B_DEC_ENG, OPC 0x06 (42_u4b_codec.md R210). -/
  | u4bDecEng
  /-- SCHED_TICK, OPC 0x10 (43_scheduler.md R244). -/
  | schedTick
  /-- TONE_TICK, OPC 0x11 (43_scheduler.md R270). -/
  | toneTick
  /-- PPS_EDGE, OPC 0x12 (43_scheduler.md R283). -/
  | ppsEdge
  /-- SCHED_RESET, OPC 0x1F (43_scheduler.md R287). -/
  | schedReset
  deriving DecidableEq, Repr

/-- Every command once, in the table's order. -/
def Instr.all : List Instr :=
  [.nop, .locate, .wsprEncode, .u4bEncCall, .u4bEncEng, .u4bDecCall, .u4bDecEng, .schedTick, .toneTick, .ppsEdge, .schedReset]

end Sys2Proof
end

