-- ==== Sys2Proof/WellFormed.lean ====
section
/-! DEFINITION. Well-formedness. A command has no operand that could be out of range (30_encoding.md R90, R100), so every term of
Instr is well-formed; what can be ill-formed is a command WORD, and 30_encoding.md R92 says which words are. The check here is
written from R92's list of illegal words, the decoder (Decode.lean) from R91's list of legal ones. -/

namespace Sys2Proof

/-- Every command is well-formed: it has no operand field (30_encoding.md R90, R100). -/
def Instr.wellFormed : Instr → Bool := fun _ => true

/-- Bits [31:8] of a command word must be 0 (30_encoding.md R90, R92). -/
def upperBitsClear (w : Word) : Bool := w.extractLsb' 8 24 == 0#24

/-- OPC is none of R92's illegal opcodes 0x07-0x0F, 0x13-0x1E, 0x20-0xFF (30_encoding.md R92). -/
def opcodeAssigned (w : Word) : Bool :=
  let opc := (w.extractLsb' 0 8).toNat
  !((0x07 ≤ opc && opc ≤ 0x0F) || (0x13 ≤ opc && opc ≤ 0x1E) || (0x20 ≤ opc && opc ≤ 0xFF))

/-- A command word that 30_encoding.md R92 does not call illegal. -/
def commandWordWellFormed (w : Word) : Bool := upperBitsClear w && opcodeAssigned w

end Sys2Proof
end

