-- ==== Sys2Proof/Decode.lean ====
section
/-! DEFINITION. The command decoder, total on every 32-bit word, and after it the encoder (30_encoding.md R90 to R92). A command is
one 32-bit word written to CMD; there are no prefixes, operand words or second words (R90). -/

namespace Sys2Proof

/-- Why a command word is no command (30_encoding.md R92). Both raise IllegalCommand. -/
inductive DecodeError where
  /-- A non-zero bit in [31:8]. -/
  | upperBitsSet
  /-- OPC is not in the opcode map. -/
  | unassignedOpcode
  deriving DecidableEq, Repr

/-- One row of the opcode map: the command is selected when `word &&& mask = pattern` (30_encoding.md R91). -/
structure OpcodeRow where
  mask : Word
  pattern : Word
  instr : Instr
  deriving DecidableEq, Repr

/-- The opcode map, row by row; every row compares all 32 bits (30_encoding.md R91). -/
def opcodeTable : List OpcodeRow :=
  [⟨0xFFFFFFFF#32, 0x00000000#32, .nop⟩,
   ⟨0xFFFFFFFF#32, 0x00000001#32, .locate⟩,
   ⟨0xFFFFFFFF#32, 0x00000002#32, .wsprEncode⟩,
   ⟨0xFFFFFFFF#32, 0x00000003#32, .u4bEncCall⟩,
   ⟨0xFFFFFFFF#32, 0x00000004#32, .u4bEncEng⟩,
   ⟨0xFFFFFFFF#32, 0x00000005#32, .u4bDecCall⟩,
   ⟨0xFFFFFFFF#32, 0x00000006#32, .u4bDecEng⟩,
   ⟨0xFFFFFFFF#32, 0x00000010#32, .schedTick⟩,
   ⟨0xFFFFFFFF#32, 0x00000011#32, .toneTick⟩,
   ⟨0xFFFFFFFF#32, 0x00000012#32, .ppsEdge⟩,
   ⟨0xFFFFFFFF#32, 0x0000001F#32, .schedReset⟩]

/-- Whether a row of the opcode map selects a word (30_encoding.md R91). -/
def rowSelects (r : OpcodeRow) (w : Word) : Bool := w &&& r.mask == r.pattern

/-- The command a word written to CMD selects, or why it selects none (30_encoding.md R91, R92). -/
def decode (w : Word) : Except DecodeError Instr :=
  match opcodeTable.find? (fun r => rowSelects r w) with
  | some r => .ok r.instr
  | none => .error (if upperBitsClear w then .unassignedOpcode else .upperBitsSet)

/-- The opcode of a command, OPC of 30_encoding.md R91. -/
def opcode : Instr → Byte
  | .nop => 0x00#8
  | .locate => 0x01#8
  | .wsprEncode => 0x02#8
  | .u4bEncCall => 0x03#8
  | .u4bEncEng => 0x04#8
  | .u4bDecCall => 0x05#8
  | .u4bDecEng => 0x06#8
  | .schedTick => 0x10#8
  | .toneTick => 0x11#8
  | .ppsEdge => 0x12#8
  | .schedReset => 0x1F#8

/-- The command word of a command: OPC in [7:0], zeros in [31:8] (30_encoding.md R90). -/
def encode (i : Instr) : Word := 0#24 ++ opcode i

/-- The command the decoder reads from `nbits` bits numbered as spec/opcode_table.json numbers them (bit 0 the least significant
bit of the one command word); every bit from `nbits` up is 0. -/
def decodeTableWord (nbits w : Nat) : Option Instr :=
  match decode (BitVec.ofNat 32 (w % 2 ^ nbits)) with
  | .ok i => some i
  | .error _ => none

end Sys2Proof
end

