-- ==== Sys2Proof/Config.lean ====
section
/-! DEFINITION. The parameters of 00_scope.md R7 at the values the PBC takes. The parameters that are whole tables (SYNC,
POWER_LUT, the FEC polynomials) stand beside the algorithm that reads them, in Machine/Wspr.lean and Machine/Telemetry.lean.
The spec leaves no instruction result open, so there is no free value here. -/

namespace Sys2Proof.Config

/-- The two roundings 00_scope.md R7 allows for the parameter VOLT_ROUND (93_implementation_defined.md A6). -/
inductive VoltRound where
  /-- Round the exact millivolt quotient half up: the PBC's rounding, and the default. -/
  | halfUp
  /-- Round the exact millivolt quotient half to even: for a model that must match a Python implementation. -/
  | halfEven
  deriving DecidableEq, Repr

/-- VOLT_ROUND at its default (00_scope.md R7, 92_eei_decisions.md D20; log 6, DESIGN CHOICE, unsafe). -/
def voltRound : VoltRound := .halfUp

/-- N_SYM: the symbols of a message (00_scope.md R7). -/
abbrev nSym : Nat := 162

/-- N_FEC_IN: the bits fed to the FEC (00_scope.md R7). -/
abbrev nFecIn : Nat := 81

/-- TONE_STEP_MHZ: the tone spacing in millihertz (00_scope.md R7, 43_scheduler.md R274). -/
def toneStepMHz : Word := 1465#32

/-- BEACON_POWER in dBm (00_scope.md R7, 43_scheduler.md R256). -/
def beaconPower : Byte := 10#8

/-- TMIN_DEFAULT (00_scope.md R7, 10_state.md R43). -/
def tminDefault : BitVec 4 := 9#4

/-- HEALTH_SATS: the satellite count from which the GPS-health bit is 1 (00_scope.md R7, 43_scheduler.md R257). -/
def healthSats : Nat := 8

/-- WAITTIME_MARGIN (00_scope.md R7, 43_scheduler.md R250). -/
def waittimeMargin : Nat := 10

/-- NOFF_MAX: the transmit-offset slots (00_scope.md R7, 92_eei_decisions.md D16). -/
abbrev noffMax : Nat := 8

/-- The largest base offset an active slot may hold: 2^32 - 1 - 3 * 1465 (10_state.md R48, 43_scheduler.md R276). -/
def offsetMax : Nat := 0xFFFFEED4

end Sys2Proof.Config
end

