-- ==== Sys2Proof/Machine/State.lean ====
section
/-! DEFINITION. All the state the spec gives the PBC (10_state.md R20 to R62) as plain data, its reset value (70_reset_and_hazards.md
R342), the names of its registers, its errors, output events and inputs. A field has exactly the width of its register's
non-reserved bits, so reserved bits read 0 and ignore writes (10_state.md R20). -/

namespace Sys2Proof.Machine

/-- The reasons a step could stop the machine: NONE. "There is no category of error that aborts the overall process from within the
core" (60_exceptions.md R318): every error is a code in STATUS and the machine goes on (log 7, DEDUCED, safe). -/
inductive Fault
  deriving DecidableEq, Repr

/-- The reasons a step could have no meaning. -/
inductive Refusal where
  /-- An arm of `exec` with no meaning yet, under the mnemonic of spec/opcode_table.json. Raised by no arm: every command of the
  table has its meaning (log 7, DEDUCED, safe). Safe. -/
  | notModelled (mnemonic : String)
  deriving DecidableEq, Repr

/-- The errors of 60_exceptions.md R310, codes 1 to 8. Code 0, OK, is the absence of one. -/
inductive Err where
  | invalidCallsign
  | invalidPower
  | invalidChannel
  | invalidGrid
  | altitudeOutOfRange
  | coordOutOfRange
  | illegalCommand
  | configInvalid
  deriving DecidableEq, Repr

/-- The scheduler's seven states (43_scheduler.md R240, 30_encoding.md R98); code 7 is never held, so it is no value here (log 10, DEDUCED, safe). -/
inductive SchedState where
  | init
  | waitForTime
  | waitForFix
  | collectTelemetry
  | waitForTransmit
  | awaitPps
  | transmitting
  deriving DecidableEq, Repr

/-- The output events of 43_scheduler.md R289. -/
inductive Event where
  /-- `configure()` of the radio driver. -/
  | radioConfigure
  /-- `enable(bool)` of the radio driver. -/
  | rfEnable (on : Bool)
  /-- `set_tone(offset, correction)`: the offset in millihertz, unsigned, and the correction, signed, both 32 bits. -/
  | setTone (off corr : Word)
  /-- Start (true) or stop (false) the ToneClock. -/
  | toneClock (run : Bool)
  /-- One log line: FIX_DATE, FIX_TIME, the call as its original string, the grid and the power (43_scheduler.md R258). -/
  | log (date time : Word) (call : List Byte) (grid : Word) (power : Byte)
  deriving DecidableEq, Repr

/-- What the world outside can do to the PBC, each taking effect as one step (20_memory.md R71, R80; 30_encoding.md R101;
70_reset_and_hazards.md R340). -/
inductive Input where
  /-- `MemRead(off, width)`. -/
  | read (off : Offset) (width : Nat)
  /-- `MemWrite(off, width, v)`. -/
  | write (off : Offset) (width : Nat) (v : Word)
  /-- A rising edge on `pps_in`. -/
  | ppsIn
  /-- A rising edge on `tone_tick_in`. -/
  | toneTickIn
  /-- The reset input `rst` is asserted (true) or released (false). -/
  | rst (asserted : Bool)
  deriving DecidableEq, Repr

/-- The codec operand and result registers (10_state.md R25 to R37). -/
structure CodecRegs where
  callLo : Word
  callHi : BitVec 16
  grid : Word
  power : Byte
  lat : Word
  lon : Word
  locLo : Word
  locHi : BitVec 16
  chan : BitVec 16
  subsq : BitVec 16
  alt : Word
  temp : Word
  volt : Word
  speed : Word
  flags : BitVec 2
  ucallLo : Word
  ucallHi : BitVec 16
  ugrid : Word
  upower : Byte
  ucallInt : BitVec 20
  uengInt : BitVec 20
  dchan : BitVec 16
  dsubsq : BitVec 16
  dalt : Word
  dtemp : Word
  dvolt : Word
  dspeed : Word
  dflags : BitVec 2
  deriving DecidableEq, Repr

/-- The WENC packed forms and buffers (10_state.md R38 to R41). Bit k of `fec` is FEC bit k, bit k of `ilv` is interleaved bit k,
and bits 2k+1, 2k of `sym` are symbol k: the words of FECBUF, ILVBUF and SYMBUF are their 32-bit slices (log 11, DEDUCED, safe). -/
structure WencRegs where
  packN : BitVec 28
  packM : BitVec 22
  packGrid : BitVec 15
  normLo : Word
  normHi : BitVec 16
  fec : BitVec 162
  ilv : BitVec 162
  sym : BitVec 324
  deriving DecidableEq, Repr

/-- The eight transmit-offset slots SCFG_OFF0..7 (10_state.md R48). -/
structure Offsets where
  off0 : Word
  off1 : Word
  off2 : Word
  off3 : Word
  off4 : Word
  off5 : Word
  off6 : Word
  off7 : Word
  deriving DecidableEq, Repr

/-- The scheduler configuration (10_state.md R42 to R48). -/
structure ScfgRegs where
  ctrl : BitVec 2
  tmin : BitVec 4
  callLo : Word
  callHi : BitVec 16
  chan : BitVec 16
  corr : Word
  noff : BitVec 4
  off : Offsets
  deriving DecidableEq, Repr

/-- The fix record (10_state.md R49). -/
structure FixRegs where
  time : Word
  date : Word
  lat : Word
  lon : Word
  alt : Word
  sats : Word
  speed : Word
  deriving DecidableEq, Repr

/-- The sensor record (10_state.md R50). -/
structure SnsRegs where
  temp : Word
  press : Word
  vin : Word
  vsol : Word
  lfront : Word
  lback : Word
  valid : BitVec 6
  deriving DecidableEq, Repr

/-- The snapshot, the source's TelemetryRecord (10_state.md R59). -/
structure Snapshot where
  time : Word
  date : Word
  lat : Word
  lon : Word
  alt : Word
  sats : Word
  speed : Word
  temp : Word
  press : Word
  vin : Word
  vsol : Word
  lfront : Word
  lback : Word
  deriving DecidableEq, Repr

/-- The scheduler status and message registers (10_state.md R51 to R58). The flags of SCHED_FLAGS are held one by one;
`rfOn` and `toneRun` are also the output levels `rf_enable` and `tone_clock_run` (10_state.md R61). -/
structure SchedRegs where
  state : SchedState
  cursor : Byte
  ppsCount : Word
  ppsLast : Word
  radioCfgd : Bool
  rfOn : Bool
  toneRun : Bool
  msgTelem : Bool
  msgValid : Bool
  offIndex : BitVec 3
  msgCallLo : Word
  msgCallHi : BitVec 16
  msgGrid : Word
  msgPower : Byte
  txBase : Word
  txCorr : Word
  toneLast : Word
  deriving DecidableEq, Repr

/-- The whole state. `pending`, `reads` and `inReset` are the model's own interface fields (logs 1, 3 and 4, DESIGN CHOICE, safe but for log 4, DESIGN CHOICE, unsafe); everything else is the
spec's (10_state.md R20, R62). -/
structure State where
  /-- STATUS.LAST_ERR: the error of the most recent command, none for OK (10_state.md R24, 60_exceptions.md R311). -/
  lastErr : Option Err
  /-- STATUS.ACCESS_ERR (10_state.md R24, 60_exceptions.md R314). -/
  accessErr : Bool
  /-- STATUS.SCHED_ERR (10_state.md R24, 60_exceptions.md R315). -/
  schedErr : Bool
  /-- STATUS.SCHED_ERR_CODE (10_state.md R24, 60_exceptions.md R315). -/
  schedErrCode : Option Err
  codec : CodecRegs
  wenc : WencRegs
  scfg : ScfgRegs
  fix : FixRegs
  sns : SnsRegs
  sched : SchedRegs
  snap : Snapshot
  /-- TXBUF0..10: bits 2k+1, 2k are symbol k of the pending or in-flight message (10_state.md R60; log 11, DEDUCED, safe). -/
  txbuf : BitVec 324
  /-- The output trace, oldest event first (43_scheduler.md R289). -/
  trace : List Event
  /-- The inputs still to take effect, in the one total order of 20_memory.md R80, oldest first (log 1, DESIGN CHOICE, safe). -/
  pending : List Input
  /-- The values MemRead has returned to the host, oldest first (log 3, DESIGN CHOICE, safe). -/
  reads : List Word
  /-- Whether `rst` is asserted (70_reset_and_hazards.md R340; log 4, DESIGN CHOICE, unsafe). -/
  inReset : Bool
  deriving DecidableEq, Repr

/-- The codec registers after reset: all 0 (70_reset_and_hazards.md R342). -/
def CodecRegs.reset : CodecRegs where
  callLo := 0
  callHi := 0
  grid := 0
  power := 0
  lat := 0
  lon := 0
  locLo := 0
  locHi := 0
  chan := 0
  subsq := 0
  alt := 0
  temp := 0
  volt := 0
  speed := 0
  flags := 0
  ucallLo := 0
  ucallHi := 0
  ugrid := 0
  upower := 0
  ucallInt := 0
  uengInt := 0
  dchan := 0
  dsubsq := 0
  dalt := 0
  dtemp := 0
  dvolt := 0
  dspeed := 0
  dflags := 0

/-- The WENC registers after reset: all 0 (70_reset_and_hazards.md R342). -/
def WencRegs.reset : WencRegs where
  packN := 0
  packM := 0
  packGrid := 0
  normLo := 0
  normHi := 0
  fec := 0
  ilv := 0
  sym := 0

/-- The configuration after reset: TMIN 9, NOFF 1, the rest 0 (70_reset_and_hazards.md R342). -/
def ScfgRegs.reset : ScfgRegs where
  ctrl := 0
  tmin := Config.tminDefault
  callLo := 0
  callHi := 0
  chan := 0
  corr := 0
  noff := 1
  off := ⟨0, 0, 0, 0, 0, 0, 0, 0⟩

/-- The fix record after reset: all 0 (70_reset_and_hazards.md R342). -/
def FixRegs.reset : FixRegs where
  time := 0
  date := 0
  lat := 0
  lon := 0
  alt := 0
  sats := 0
  speed := 0

/-- The sensor record after reset: all 0 (70_reset_and_hazards.md R342). -/
def SnsRegs.reset : SnsRegs where
  temp := 0
  press := 0
  vin := 0
  vsol := 0
  lfront := 0
  lback := 0
  valid := 0

/-- The snapshot after reset, and after SCHED_RESET: all 0 (70_reset_and_hazards.md R342, 43_scheduler.md R287). -/
def Snapshot.reset : Snapshot where
  time := 0
  date := 0
  lat := 0
  lon := 0
  alt := 0
  sats := 0
  speed := 0
  temp := 0
  press := 0
  vin := 0
  vsol := 0
  lfront := 0
  lback := 0

/-- The scheduler status after reset, and after SCHED_RESET: Init and all 0 (70_reset_and_hazards.md R342, 43_scheduler.md R287). -/
def SchedRegs.reset : SchedRegs where
  state := .init
  cursor := 0
  ppsCount := 0
  ppsLast := 0
  radioCfgd := false
  rfOn := false
  toneRun := false
  msgTelem := false
  msgValid := false
  offIndex := 0
  msgCallLo := 0
  msgCallHi := 0
  msgGrid := 0
  msgPower := 0
  txBase := 0
  txCorr := 0
  toneLast := 0

/-- The machine right after hardware reset: every register at the value of 70_reset_and_hazards.md R342, the trace empty (R340),
no event emitted (R341), no input pending (log 1, DESIGN CHOICE, safe). -/
def State.reset : State where
  lastErr := none
  accessErr := false
  schedErr := false
  schedErrCode := none
  codec := .reset
  wenc := .reset
  scfg := .reset
  fix := .reset
  sns := .reset
  sched := .reset
  snap := .reset
  txbuf := 0
  trace := []
  pending := []
  reads := []
  inReset := false

/-- The registers of the window by name (10_state.md R22 to R60). -/
inductive Reg where
  | id | cmd | status
  | callLo | callHi | grid | power | lat | lon | locLo | locHi | chan | subsq | alt | temp | volt | speed | flags
  | ucallLo | ucallHi | ugrid | upower | ucallInt | uengInt | dchan | dsubsq | dalt | dtemp | dvolt | dspeed | dflags
  | packN | packM | packGrid | normLo | normHi
  | fecbuf (w : Fin 6) | ilvbuf (w : Fin 6) | symbuf (w : Fin 11)
  | scfgCtrl | scfgTmin | scfgCallLo | scfgCallHi | scfgChan | scfgCorr | scfgNoff | scfgOff (i : Fin 8)
  | fixTime | fixDate | fixLat | fixLon | fixAlt | fixSats | fixSpeed
  | snsTemp | snsPress | snsVin | snsVsol | snsLfront | snsLback | snsValid
  | schedState | txCursor | ppsCount | ppsLast | schedFlags | offIndex
  | msgCallLo | msgCallHi | msgGrid | msgPower | txBase | txCorr | toneLast
  | snapTime | snapDate | snapLat | snapLon | snapAlt | snapSats | snapSpeed
  | snapTemp | snapPress | snapVin | snapVsol | snapLfront | snapLback
  | txbuf (w : Fin 11)
  deriving DecidableEq, Repr

/-- The access codes of 10_state.md R20. -/
inductive Access where
  /-- RW: read and write. -/
  | rw
  /-- RO: read only; a write is an access error. -/
  | ro
  /-- WO: write only; reads return 0. Only CMD, whose write runs a command (10_state.md R23). -/
  | wo
  /-- STATUS: bits 8 and 9 are W1C, the other bits ignore a write without error (10_state.md R24). -/
  | w1c
  /-- L: writable only while SCHED_STATE = Init (43_scheduler.md R246). -/
  | locked
  deriving DecidableEq, Repr

end Sys2Proof.Machine
end

