-- ==== Sys2Proof/Machine/Operands.lean ====
section
/-! DEFINITION. The operand forms: character classes and values (00_scope.md R11), byte lanes and strings in registers
(20_memory.md R75, 30_encoding.md R93 to R95), clamping (00_scope.md R9), and the bit and symbol vectors of the buffers
(20_memory.md R77). -/

namespace Sys2Proof.Machine

/-! ### Bit vectors by element -/

/-- The `n`-bit vector whose bit k is `f k`: element 0 in the least significant bit (20_memory.md R77). -/
def bitsOf (f : Nat → Bool) : (n : Nat) → BitVec n
  | 0 => 0#0
  | n + 1 => BitVec.cons (f n) (bitsOf f n)

/-- The vector `x` with bit `k` set to `b`. -/
def putBit {n : Nat} (x : BitVec n) (k : Nat) (b : Bool) : BitVec n :=
  (x &&& ~~~(1#n <<< k)) ||| ((BitVec.ofBool b).setWidth n <<< k)

/-- The 32-bit word `w` of a buffer: its bits 32w to 32w+31, zero beyond the buffer's end (10_state.md R39 to R41). -/
def bufWord {n : Nat} (x : BitVec n) (w : Nat) : Word := x.extractLsb' (32 * w) 32

/-- Symbol `k` of a symbol buffer: its bits 2k+1, 2k (10_state.md R41, R60; 43_scheduler.md R273). -/
def symbolAt (x : BitVec 324) (k : Nat) : BitVec 2 := x.extractLsb' (2 * k) 2

/-! ### Characters -/

/-- ASCII code of a character (00_scope.md R10, R11). -/
def chr (c : Char) : Byte := BitVec.ofNat 8 c.toNat

/-- The character `k` places after `c` (00_scope.md R10). -/
def chrPlus (c : Char) (k : Nat) : Byte := BitVec.ofNat 8 (c.toNat + k)

/-- DIGIT = '0'..'9' (00_scope.md R11). -/
def isDigit (b : Byte) : Bool := 0x30 ≤ b.toNat && b.toNat ≤ 0x39

/-- UPPER = 'A'..'Z' (00_scope.md R11). -/
def isUpper (b : Byte) : Bool := 0x41 ≤ b.toNat && b.toNat ≤ 0x5A

/-- LOWER_AX = 'a'..'x' (00_scope.md R11). -/
def isLowerAX (b : Byte) : Bool := 0x61 ≤ b.toNat && b.toNat ≤ 0x78

/-- FIELD = 'A'..'R' (00_scope.md R11). -/
def isField (b : Byte) : Bool := 0x41 ≤ b.toNat && b.toNat ≤ 0x52

/-- SPACE (00_scope.md R11). -/
def chSpace : Byte := 0x20#8

/-- NUL (00_scope.md R11). -/
def chNul : Byte := 0x00#8

/-- `c - '0'` of a digit. -/
def digitVal (b : Byte) : Nat := b.toNat - 0x30

/-- `c - 'A'` of an uppercase letter. -/
def upperVal (b : Byte) : Nat := b.toNat - 0x41

/-- `c - 'a'` of a lowercase letter. -/
def lowerVal (b : Byte) : Nat := b.toNat - 0x61

/-- The base-36 value of a digit (0..9) or uppercase letter (10..35) (42_u4b_codec.md R218). -/
def val36 (b : Byte) : Nat := if isDigit b then digitVal b else upperVal b + 10

/-- The base-36 character of a value: '0'+v below 10, else 'A'+(v-10) (42_u4b_codec.md R196). -/
def chr36 (v : Nat) : Byte := if v < 10 then chrPlus '0' v else chrPlus 'A' (v - 10)

/-! ### Strings in registers -/

/-- Byte lane `i` of a register: bits 8i+7 to 8i (20_memory.md R75). -/
def lane {n : Nat} (w : BitVec n) (i : Nat) : Byte := w.extractLsb' (8 * i) 8

/-- A 4-character register: character i in byte lane i (20_memory.md R75, 30_encoding.md R93). -/
def word4 (c0 c1 c2 c3 : Byte) : Word := c3 ++ c2 ++ c1 ++ c0

/-- A 2-character register: character 0 in [7:0], character 1 in [15:8] (30_encoding.md R93). -/
def half2 (c0 c1 : Byte) : BitVec 16 := c1 ++ c0

/-- The `_LO` register of a six-character string: characters 0-3 (20_memory.md R75). -/
def strLo (s : Str6) : Word := word4 s.c0 s.c1 s.c2 s.c3

/-- The `_HI` register of a six-character string: characters 4-5 (20_memory.md R75). -/
def strHi (s : Str6) : BitVec 16 := half2 s.c4 s.c5

/-- The six characters a register pair holds, all of them (30_encoding.md R94: pseudo-callsigns are not NUL-terminated). -/
def str6Of (lo : Word) (hi : BitVec 16) : Str6 where
  c0 := lane lo 0
  c1 := lane lo 1
  c2 := lane lo 2
  c3 := lane lo 3
  c4 := lane hi 0
  c5 := lane hi 1

/-- The six characters in order. -/
def strChars (s : Str6) : List Byte := [s.c0, s.c1, s.c2, s.c3, s.c4, s.c5]

/-- The original string of a NUL-terminated callsign field: its characters up to but not including the first NUL, or all six
(30_encoding.md R94, 41_wspr_encoder.md R141). -/
def nulTerminated (lo : Word) (hi : BitVec 16) : List Byte := (strChars (str6Of lo hi)).takeWhile (fun b => b != chNul)

/-! ### Numbers -/

/-- `clamp(v, lo, hi)` over the integers (00_scope.md R9). -/
def clampInt (v lo hi : Int) : Int := min (max v lo) hi

/-- `clamp(v, lo, hi)` over the naturals (00_scope.md R9). -/
def clampNat (v lo hi : Nat) : Nat := min (max v lo) hi

/-- Slot `i` of the transmit offsets, SCFG_OFFi (10_state.md R48). -/
def offsetSlot (o : Offsets) : Fin 8 → Word
  | 0 => o.off0
  | 1 => o.off1
  | 2 => o.off2
  | 3 => o.off3
  | 4 => o.off4
  | 5 => o.off5
  | 6 => o.off6
  | 7 => o.off7

/-- The transmit offsets with slot `i` set (10_state.md R48). -/
def setOffsetSlot (o : Offsets) (i : Fin 8) (v : Word) : Offsets :=
  match i with
  | 0 => { o with off0 := v }
  | 1 => { o with off1 := v }
  | 2 => { o with off2 := v }
  | 3 => { o with off3 := v }
  | 4 => { o with off4 := v }
  | 5 => { o with off5 := v }
  | 6 => { o with off6 := v }
  | 7 => { o with off7 := v }

/-- FIX_TIME's minute `(FIX_TIME // 100) mod 100` (43_scheduler.md R262). -/
def minuteOf (time : Word) : Nat := time.toNat / 100 % 100

/-- FIX_TIME's second `FIX_TIME mod 100` (43_scheduler.md R262). -/
def secondOf (time : Word) : Nat := time.toNat % 100

end Sys2Proof.Machine
end

