-- ==== Sys2Proof/Machine/Maidenhead.lean ====
section
/-! DEFINITION. The LOC unit's algorithm: signed microdegrees to a six-character Maidenhead locator (40_locator.md R121 to R125).
LOCATE and the scheduler's CollectTelemetry both apply it. -/

namespace Sys2Proof.Machine

/-- The closed ranges of 40_locator.md R121, in microdegrees. -/
def coordsInRange (lat lon : Int) : Bool :=
  -90000000 ≤ lat && lat ≤ 90000000 && -180000000 ≤ lon && lon ≤ 180000000

/-- X of 40_locator.md R122: the longitude shifted to 0 and saturated below 360 degrees. -/
def shiftLon (lon : Int) : Nat := (min (lon + 180000000) 359999999).toNat

/-- Y of 40_locator.md R122: the latitude shifted to 0 and saturated below 180 degrees. -/
def shiftLat (lat : Int) : Nat := (min (lat + 90000000) 179999999).toNat

/-- The six characters of 40_locator.md R123 (field), R124 (square) and R125 (subsquare) from X and Y. -/
def locatorChars (x y : Nat) : Str6 where
  c0 := chrPlus 'A' (x / 20000000)
  c1 := chrPlus 'A' (y / 10000000)
  c2 := chrPlus '0' (x % 20000000 / 2000000)
  c3 := chrPlus '0' (y % 10000000 / 1000000)
  c4 := chrPlus 'a' (x % 2000000 * 12 / 1000000)
  c5 := chrPlus 'a' (y % 1000000 * 24 / 1000000)

/-- The locator of a latitude and a longitude register, or CoordOutOfRange (40_locator.md R120 to R125). -/
def locate (lat lon : Word) : Except Err Str6 :=
  if coordsInRange lat.toInt lon.toInt then .ok (locatorChars (shiftLon lon.toInt) (shiftLat lat.toInt))
  else .error .coordOutOfRange

end Sys2Proof.Machine
end

