-- ==== Sys2Proof/Machine/Wspr.lean ====
section
/-! DEFINITION. The WENC unit's algorithm in the spec's steps: normalise, pack, assemble, convolve, interleave, merge with the sync
vector (41_wspr_encoder.md R141 to R161). WSPR_ENCODE, the scheduler's CollectTelemetry and the CFG_ERR check apply it. -/

namespace Sys2Proof.Machine

/-! ### Step 1: normalise the callsign (41_wspr_encoder.md R141 to R143) -/

/-- The padding count k of 41_wspr_encoder.md R142: 0 if original character 2 is a digit, else 1 if character 1 is, else none. -/
def padCount (orig : List Byte) : Option Nat :=
  if orig[2]?.any isDigit then some 0
  else if orig[1]?.any isDigit then some 1
  else none

/-- A string of at most six characters right-padded with spaces to six (41_wspr_encoder.md R142). -/
def padRight (p : List Byte) : Str6 where
  c0 := p.getD 0 chSpace
  c1 := p.getD 1 chSpace
  c2 := p.getD 2 chSpace
  c3 := p.getD 3 chSpace
  c4 := p.getD 4 chSpace
  c5 := p.getD 5 chSpace

/-- The character classes of a normalised callsign (41_wspr_encoder.md R143). -/
def callClassesLegal (s : Str6) : Bool :=
  (isDigit s.c0 || isUpper s.c0 || s.c0 == chSpace) &&
  (isDigit s.c1 || isUpper s.c1) &&
  isDigit s.c2 &&
  (isUpper s.c3 || s.c3 == chSpace) &&
  (isUpper s.c4 || s.c4 == chSpace) &&
  (isUpper s.c5 || s.c5 == chSpace)

/-- The normalised callsign, or InvalidCallsign: the digit search, then the length, then the classes
(41_wspr_encoder.md R142, R143). -/
def normalise (orig : List Byte) : Except Err Str6 :=
  match padCount orig with
  | none => .error .invalidCallsign
  | some k =>
    let p := List.replicate k chSpace ++ orig
    if 6 < p.length then .error .invalidCallsign
    else if callClassesLegal (padRight p) then .ok (padRight p)
    else .error .invalidCallsign

/-! ### Steps 2 to 4: pack callsign, grid and power (41_wspr_encoder.md R144 to R149) -/

/-- The value v(c) of a callsign character: digit 0-9, letter 10-35, space 36 (41_wspr_encoder.md R144). -/
def callVal (c : Byte) : Nat :=
  if isDigit c then digitVal c else if isUpper c then upperVal c + 10 else 36

/-- N, the packed callsign (41_wspr_encoder.md R144). -/
def packCall (s : Str6) : Nat :=
  let n := callVal s.c0
  let n := n * 36 + callVal s.c1
  let n := n * 10 + callVal s.c2
  let n := n * 27 + (callVal s.c3 - 10)
  let n := n * 27 + (callVal s.c4 - 10)
  n * 27 + (callVal s.c5 - 10)

/-- The grid check: two letters 'A'..'R', then two digits (41_wspr_encoder.md R146, 42_u4b_codec.md R211). -/
def gridLegal (g : Word) : Bool :=
  isField (lane g 0) && isField (lane g 1) && isDigit (lane g 2) && isDigit (lane g 3)

/-- G, the packed grid (41_wspr_encoder.md R147). The subtractions never go below 0 on a legal grid. -/
def packGrid (g : Word) : Nat :=
  (179 - 10 * upperVal (lane g 0) - digitVal (lane g 2)) * 180 + 10 * upperVal (lane g 1) + digitVal (lane g 3)

/-- The power check: 0 to 60 with last digit 0, 3 or 7 (41_wspr_encoder.md R148). -/
def powerLegal (p : Byte) : Bool :=
  p.toNat ≤ 60 && (p.toNat % 10 == 0 || p.toNat % 10 == 3 || p.toNat % 10 == 7)

/-- M, the grid combined with the power (41_wspr_encoder.md R149). -/
def packPower (g : Nat) (p : Byte) : Nat := g * 128 + p.toNat + 64

/-! ### Step 5: assemble the payload (41_wspr_encoder.md R150 to R152) -/

/-- P, the 50-bit payload shifted to 56 bits (41_wspr_encoder.md R150). -/
def payload (n m : Nat) : BitVec 56 := BitVec.ofNat 56 (((n <<< 22) ||| (m &&& 0x3FFFFF)) <<< 6)

/-- The 11-byte buffer: P packed big-endian into 7 bytes, then 4 zero bytes (41_wspr_encoder.md R151). -/
def payloadBytes (p : BitVec 56) : List Byte :=
  (List.range 7).map (fun b => lane p (6 - b)) ++ List.replicate 4 0#8

/-- The bits of a byte, most significant first (41_wspr_encoder.md R152). -/
def msbFirst (b : Byte) : List Bool := (List.range 8).map (fun i => b.getLsbD (7 - i))

/-- The input stream in[0..80] of the FEC: the buffer's bits, MSB of byte 0 first, the first 81 of them
(41_wspr_encoder.md R152). -/
def inputBits (buf : List Byte) : List Bool := (buf.flatMap msbFirst).take Config.nFecIn

/-! ### Step 6: convolutional FEC (41_wspr_encoder.md R153 to R156) -/

/-- POLY0 (41_wspr_encoder.md R156). -/
def poly0 : Word := 0xF2D05351#32

/-- POLY1 (41_wspr_encoder.md R156). -/
def poly1 : Word := 0xE4613C47#32

/-- The XOR of the low `n` bits of `x`. -/
def xorBits (x : Word) : Nat → Bool
  | 0 => false
  | n + 1 => x.getLsbD n ^^ xorBits x n

/-- parity(x): 1 iff x has an odd number of 1 bits (41_wspr_encoder.md R154, 92_eei_decisions.md D11). -/
def parity (x : Word) : Bool := xorBits x 32

/-- One shift of an FEC register: `(R << 1) | b` modulo 2^32 (41_wspr_encoder.md R153). -/
def shiftIn (r : Word) (b : Bool) : Word := (r <<< 1) ||| (BitVec.ofBool b).setWidth 32

/-- The FEC bits from registers `r0`, `r1` on: for each input bit both registers shift, then the two parities are emitted
(41_wspr_encoder.md R153, R155). -/
def convolve (r0 r1 : Word) : List Bool → List Bool
  | [] => []
  | b :: bs =>
    let r0 := shiftIn r0 b
    let r1 := shiftIn r1 b
    parity (r0 &&& poly0) :: parity (r1 &&& poly1) :: convolve r0 r1 bs

/-- fec[0..161], both registers starting at 0 (41_wspr_encoder.md R153, R155). -/
def fecEncode (input : List Bool) : List Bool := convolve 0 0 input

/-! ### Step 7: interleave (41_wspr_encoder.md R157 to R159) -/

/-- The 8-bit reversal: bit 7-b of the result is bit b of j (41_wspr_encoder.md R158). -/
def rev8 (j : Nat) : Nat := (bitsOf (fun k => j.testBit (7 - k)) 8).toNat

/-- The loop of 41_wspr_encoder.md R157 over the remaining counter values `js`, with FEC bit `i` the next to place. -/
def interleaveFrom (fec : BitVec 162) : List Nat → Nat → BitVec 162 → BitVec 162
  | [], _, ilv => ilv
  | j :: js, i, ilv =>
    if i = 162 then ilv
    else if rev8 j < 162 then interleaveFrom fec js (i + 1) (putBit ilv (rev8 j) (fec.getLsbD i))
    else interleaveFrom fec js i ilv

/-- ilv: FEC bits placed in bit-reversal order, j from 0 to 254 (41_wspr_encoder.md R157). -/
def interleave (fec : BitVec 162) : BitVec 162 := interleaveFrom fec (List.range 255) 0 0#162

/-! ### Step 8: merge with the sync vector (41_wspr_encoder.md R160, R161) -/

/-- The sync vector: the literal table of 41_wspr_encoder.md R161, the default of the parameter SYNC (00_scope.md R7; log 5, PRESUMED, unsafe). -/
def syncTable : List (BitVec 1) :=
  [1, 1, 0, 0, 0, 0, 0, 0, 1, 0, 0, 0, 1, 1, 1, 0, 0, 0, 1, 0] ++
  [0, 1, 0, 1, 1, 1, 1, 0, 0, 0, 0, 0, 0, 0, 1, 0, 0, 1, 0, 1] ++
  [0, 0, 0, 0, 0, 0, 1, 0, 1, 1, 0, 0, 1, 1, 0, 1, 0, 0, 0, 1] ++
  [1, 0, 1, 0, 0, 0, 0, 1, 1, 0, 1, 0, 1, 0, 1, 0, 1, 0, 0, 1] ++
  [0, 0, 1, 0, 1, 1, 0, 0, 0, 1, 1, 0, 1, 0, 1, 0, 0, 0, 1, 0] ++
  [0, 0, 0, 0, 1, 0, 0, 1, 0, 0, 1, 1, 1, 0, 1, 1, 0, 0, 1, 1] ++
  [0, 1, 0, 0, 0, 1, 1, 1, 0, 0, 0, 0, 0, 1, 0, 1, 0, 0, 1, 1] ++
  [0, 0, 0, 0, 0, 0, 0, 1, 1, 0, 1, 0, 1, 1, 0, 0, 0, 1, 1, 0] ++
  [0, 0]

/-- SYNC[k] (41_wspr_encoder.md R161). -/
def syncBit (k : Nat) : BitVec 1 := syncTable.getD k 0

/-- Symbol k: `SYNC[k] + 2 * ilv[k]`, a 2-bit value (41_wspr_encoder.md R160, 30_encoding.md R97). -/
def symbol (ilv : BitVec 162) (k : Nat) : BitVec 2 :=
  (syncBit k).setWidth 2 + 2 * (BitVec.ofBool (ilv.getLsbD k)).setWidth 2

/-- The 162 symbols, symbol k in bits 2k+1, 2k (41_wspr_encoder.md R160, 10_state.md R41). -/
def mergeSync (ilv : BitVec 162) : BitVec 324 := bitsOf (fun b => (symbol ilv (b / 2)).getLsbD (b % 2)) 324

/-! ### The whole encoder -/

/-- Every result of a message whose operands passed their checks (41_wspr_encoder.md R140, R162). -/
def encodeLegal (s : Str6) (grid : Word) (power : Byte) : WencRegs :=
  let n := packCall s
  let g := packGrid grid
  let m := packPower g power
  let fecBits := fecEncode (inputBits (payloadBytes (payload n m)))
  let fec := bitsOf (fun k => fecBits.getD k false) 162
  let ilv := interleave fec
  { packN := BitVec.ofNat 28 n
    packM := BitVec.ofNat 22 m
    packGrid := BitVec.ofNat 15 g
    normLo := strLo s
    normHi := strHi s
    fec := fec
    ilv := ilv
    sym := mergeSync ilv }

/-- The encoder on a callsign field, a grid and a power: callsign, then grid, then power are checked
(41_wspr_encoder.md R140, 60_exceptions.md R313). -/
def wsprEncode (callLo : Word) (callHi : BitVec 16) (grid : Word) (power : Byte) : Except Err WencRegs :=
  match normalise (nulTerminated callLo callHi) with
  | .error e => .error e
  | .ok s =>
    if !gridLegal grid then .error .invalidGrid
    else if !powerLegal power then .error .invalidPower
    else .ok (encodeLegal s grid power)

end Sys2Proof.Machine
end

