-- ==== Sys2Proof/Machine/Telemetry.lean ====
section
/-! DEFINITION. The U4B unit's algorithms: the two encoders and the two decoders of the U4B telemetry codec (42_u4b_codec.md R190 to
R221). The U4B commands and the scheduler's CollectTelemetry apply them. -/

namespace Sys2Proof.Machine

/-! ### Altitude and subsquare into a pseudo-callsign (42_u4b_codec.md R190 to R196) -/

/-- The first channel character is 'Q' or '0' (42_u4b_codec.md R191, R217). -/
def channelLetter (c : Byte) : Bool := c == chr 'Q' || c == chr '0'

/-- The channel check (42_u4b_codec.md R191). -/
def channelLegal (ch : BitVec 16) : Bool := channelLetter (lane ch 0) && isDigit (lane ch 1)

/-- The subsquare check (42_u4b_codec.md R192). -/
def subsqLegal (sq : BitVec 16) : Bool := isLowerAX (lane sq 0) && isLowerAX (lane sq 1)

/-- The altitude check (42_u4b_codec.md R193). -/
def altitudeLegal (alt : Int) : Bool := 0 ≤ alt && alt ≤ 21359

/-- telem_int of the call: `(c1*24 + c2)*1068 + alt // 20` (42_u4b_codec.md R194). -/
def callInt (sq : BitVec 16) (alt : Int) : Nat :=
  (lowerVal (lane sq 0) * 24 + lowerVal (lane sq 1)) * 1068 + (alt / 20).toNat

/-- The pseudo-callsign of a channel and a telem_int (42_u4b_codec.md R195, R196). -/
def pseudoCall (ch : BitVec 16) (t : Nat) : Str6 :=
  let p1 := t / 17576
  let r := t % 17576
  { c0 := lane ch 0
    c1 := chr36 p1
    c2 := lane ch 1
    c3 := chrPlus 'A' (r / 676)
    c4 := chrPlus 'A' (r % 676 / 26)
    c5 := chrPlus 'A' (r % 26) }

/-- What U4B_ENC_CALL computes: the pseudo-callsign and its telem_int. -/
structure CallFrame where
  call : Str6
  t : Nat
  deriving DecidableEq, Repr

/-- The call encoder: channel, then subsquare, then altitude are checked (42_u4b_codec.md R190, 60_exceptions.md R313). -/
def encCall (ch sq : BitVec 16) (alt : Word) : Except Err CallFrame :=
  if !channelLegal ch then .error .invalidChannel
  else if !subsqLegal sq then .error .invalidGrid
  else if !altitudeLegal alt.toInt then .error .altitudeOutOfRange
  else .ok ⟨pseudoCall ch (callInt sq alt.toInt), callInt sq alt.toInt⟩

/-! ### Engineering values into grid and power (42_u4b_codec.md R198 to R206) -/

/-- POWER_LUT, index 17 duplicating 37 as the source insists (42_u4b_codec.md R205, 90_conflicts.md C1). -/
def powerLut : List Byte := [0, 3, 7, 10, 13, 17, 20, 23, 27, 30, 33, 37, 40, 43, 47, 50, 53, 37, 60]

/-- tq, 0..89 (42_u4b_codec.md R200). -/
def quantTemp (temp : Int) : Nat := (clampInt temp (-50) 39 + 50).toNat

/-- The quotient `x / 50` rounded half to even, on the exact value (42_u4b_codec.md R201, VOLT_ROUND = half_even). -/
def halfEven50 (x : Nat) : Nat :=
  if x % 50 < 25 then x / 50
  else if 25 < x % 50 then x / 50 + 1
  else if x / 50 % 2 = 0 then x / 50
  else x / 50 + 1

/-- vq, 0..39, under the parameter VOLT_ROUND (42_u4b_codec.md R201; log 6, DESIGN CHOICE, unsafe). -/
def quantVolt (mode : Config.VoltRound) (mv : Nat) : Nat :=
  match mode with
  | .halfUp => (clampNat mv 3000 4950 - 3000 + 25) / 50
  | .halfEven => halfEven50 (clampNat mv 3000 4950 - 3000)

/-- sq, 0..41 (42_u4b_codec.md R202). -/
def quantSpeed (spd : Nat) : Nat := clampNat spd 0 82 / 2

/-- telem_int of the engineering frame (42_u4b_codec.md R203). -/
def engInt (tq vq sq : Nat) (orient health : Bool) : Nat :=
  health.toNat + 2 * (orient.toNat + 2 * (sq + 42 * (vq + 40 * tq)))

/-- The grid of a telem_int: base-18, 18, 10, 10 digits of `t // 19` (42_u4b_codec.md R206). -/
def engGrid (t : Nat) : Word :=
  let g := t / 19
  word4 (chrPlus 'A' (g / 1800)) (chrPlus 'A' (g / 100 % 18)) (chrPlus '0' (g / 10 % 10)) (chrPlus '0' (g % 10))

/-- The power of a telem_int: `POWER_LUT[t mod 19]` (42_u4b_codec.md R204). -/
def engPower (t : Nat) : Byte := powerLut.getD (t % 19) 0

/-- What U4B_ENC_ENG computes: grid, power and telem_int. -/
structure EngFrame where
  grid : Word
  power : Byte
  t : Nat
  deriving DecidableEq, Repr

/-- The engineering encoder, which has no error (42_u4b_codec.md R198). -/
def encEng (temp volt speed : Word) (orient health : Bool) : EngFrame :=
  let t := engInt (quantTemp temp.toInt) (quantVolt Config.voltRound volt.toNat) (quantSpeed speed.toNat) orient health
  ⟨engGrid t, engPower t, t⟩

/-! ### Grid and power back into engineering values (42_u4b_codec.md R210 to R214) -/

/-- g of a legal U4B grid (42_u4b_codec.md R213). -/
def gridInt (g : Word) : Nat :=
  upperVal (lane g 0) * 1800 + upperVal (lane g 1) * 100 + digitVal (lane g 2) * 10 + digitVal (lane g 3)

/-- The decoded engineering values (42_u4b_codec.md R214). -/
structure EngValues where
  temp : Int
  volt : Nat
  speed : Nat
  orient : Bool
  health : Bool
  t : Nat
  deriving DecidableEq, Repr

/-- Demultiplexing a telem_int by 2, 4, 168 and 6720, with no clamp (42_u4b_codec.md R214). -/
def demux (t : Nat) : EngValues where
  temp := (t / 6720 : Nat) - 50
  volt := 3000 + 50 * (t / 168 % 40)
  speed := 2 * (t / 4 % 42)
  orient := t / 2 % 2 == 1
  health := t % 2 == 1
  t := t

/-- The engineering decoder: grid, then power are checked; the FIRST index of the power in POWER_LUT is taken
(42_u4b_codec.md R210 to R213, 60_exceptions.md R313). -/
def decEng (grid : Word) (power : Byte) : Except Err EngValues :=
  if !gridLegal grid then .error .invalidGrid
  else
    match powerLut.findIdx? (fun p => p == power) with
    | none => .error .invalidPower
    | some idx => .ok (demux (gridInt grid * 19 + idx))

/-! ### Pseudo-callsign back into channel, subsquare and altitude (42_u4b_codec.md R216 to R220) -/

/-- The channel characters of a pseudo-callsign (42_u4b_codec.md R217). -/
def callChannelLegal (cs : Str6) : Bool := channelLetter cs.c0 && isDigit cs.c2

/-- The value characters of a pseudo-callsign (42_u4b_codec.md R218). -/
def callValuesLegal (cs : Str6) : Bool :=
  (isDigit cs.c1 || isUpper cs.c1) && isUpper cs.c3 && isUpper cs.c4 && isUpper cs.c5

/-- t of a pseudo-callsign (42_u4b_codec.md R219). -/
def decodedCallInt (cs : Str6) : Nat :=
  val36 cs.c1 * 17576 + upperVal cs.c3 * 676 + upperVal cs.c4 * 26 + upperVal cs.c5

/-- The decoded channel, subsquare, altitude and telem_int (42_u4b_codec.md R220, R221). -/
structure CallValues where
  chan : BitVec 16
  subsq : BitVec 16
  alt : Nat
  t : Nat
  deriving DecidableEq, Repr

/-- The call decoder: channel characters, value characters, then the subsquare index are checked
(42_u4b_codec.md R216 to R220, 60_exceptions.md R313). -/
def decCall (cs : Str6) : Except Err CallValues :=
  if !callChannelLegal cs then .error .invalidChannel
  else if !callValuesLegal cs then .error .invalidCallsign
  else
    let t := decodedCallInt cs
    let s := t / 1068
    if 23 < s / 24 then .error .invalidGrid
    else .ok ⟨half2 cs.c0 cs.c2, half2 (chrPlus 'a' (s / 24)) (chrPlus 'a' (s % 24)), t % 1068 * 20, t⟩

end Sys2Proof.Machine
end

