-- ==== Sys2Proof/Machine/Flags.lean ====
section
/-! DEFINITION. The flag computations: the codes of STATUS and SCHED_STATE, the live CFG_ERR bit, the words STATUS and SCHED_FLAGS
read as, and the W1C write of STATUS (10_state.md R24, R51, R55; 30_encoding.md R98, R99; 43_scheduler.md R247;
60_exceptions.md R310). -/

namespace Sys2Proof.Machine

/-- The code of an error (60_exceptions.md R310). -/
def errCode : Err → Byte
  | .invalidCallsign => 1#8
  | .invalidPower => 2#8
  | .invalidChannel => 3#8
  | .invalidGrid => 4#8
  | .altitudeOutOfRange => 5#8
  | .coordOutOfRange => 6#8
  | .illegalCommand => 7#8
  | .configInvalid => 8#8

/-- The code of LAST_ERR and SCHED_ERR_CODE: 0 for OK (60_exceptions.md R310). -/
def statusCode : Option Err → Byte
  | none => 0#8
  | some e => errCode e

/-- The code of a scheduler state (30_encoding.md R98). -/
def stateCode : SchedState → BitVec 3
  | .init => 0#3
  | .waitForTime => 1#3
  | .waitForFix => 2#3
  | .collectTelemetry => 3#3
  | .waitForTransmit => 4#3
  | .awaitPps => 5#3
  | .transmitting => 6#3

/-- SCFG_CTRL.MODE: true for "U4B" (10_state.md R42). -/
def modeU4b (c : ScfgRegs) : Bool := c.ctrl.getLsbD 0

/-- SCFG_CTRL.LOG_EN (10_state.md R42). -/
def logEnabled (c : ScfgRegs) : Bool := c.ctrl.getLsbD 1

/-- Check 1 of 43_scheduler.md R247: the beacon callsign normalises. -/
def cfgCallValid (c : ScfgRegs) : Bool :=
  match normalise (nulTerminated c.callLo c.callHi) with
  | .ok _ => true
  | .error _ => false

/-- Check 4 of 43_scheduler.md R247: every active offset slot leaves room for three tone steps. -/
def cfgOffsetsValid (c : ScfgRegs) : Bool :=
  (List.finRange 8).all fun i => !(decide (i.val < c.noff.toNat)) || decide ((offsetSlot c.off i).toNat ≤ Config.offsetMax)

/-- The configuration is valid: the five checks of 43_scheduler.md R247. -/
def cfgValid (c : ScfgRegs) : Bool :=
  cfgCallValid c &&
  decide (c.tmin.toNat ≤ 9) &&
  (decide (1 ≤ c.noff.toNat) && decide (c.noff.toNat ≤ Config.noffMax)) &&
  cfgOffsetsValid c &&
  (!modeU4b c || channelLegal c.chan)

/-- STATUS.CFG_ERR, live (10_state.md R24, 43_scheduler.md R247). -/
def cfgErr (s : State) : Bool := !cfgValid s.scfg

/-- The word STATUS reads as: [7:0] LAST_ERR, [8] ACCESS_ERR, [9] SCHED_ERR, [10] CFG_ERR, [23:16] SCHED_ERR_CODE
(10_state.md R24). -/
def statusWord (s : State) : Word :=
  0#8 ++ statusCode s.schedErrCode ++ 0#5 ++ BitVec.ofBool (cfgErr s) ++ BitVec.ofBool s.schedErr ++
    BitVec.ofBool s.accessErr ++ statusCode s.lastErr

/-- The word SCHED_FLAGS reads as (10_state.md R55). -/
def schedFlagsWord (c : SchedRegs) : Word :=
  0#27 ++ BitVec.ofBool c.msgValid ++ BitVec.ofBool c.msgTelem ++ BitVec.ofBool c.toneRun ++ BitVec.ofBool c.rfOn ++
    BitVec.ofBool c.radioCfgd

/-- A write to STATUS: a 1 in bit 8 clears ACCESS_ERR, a 1 in bit 9 clears SCHED_ERR, nothing else happens (10_state.md R24). -/
def writeStatus (v : Word) (s : State) : State :=
  { s with
    accessErr := s.accessErr && !v.getLsbD 8
    schedErr := s.schedErr && !v.getLsbD 9 }

end Sys2Proof.Machine
end

