-- ==== Sys2Proof/Machine/Ops.lean ====
section
/-! DEFINITION. The named operations over the state: field updates, output events, raising an error, the register window (offsets,
access codes, reads and writes) and hardware reset. -/

namespace Sys2Proof.Machine

/-! ### Field updates -/

/-- The state with STATUS.LAST_ERR replaced. -/
def State.setLastErr (s : State) (x : Option Err) : State := { s with lastErr := x }

/-- The state with STATUS.ACCESS_ERR replaced. -/
def State.setAccessErr (s : State) (x : Bool) : State := { s with accessErr := x }

/-- The state with STATUS.SCHED_ERR replaced. -/
def State.setSchedErr (s : State) (x : Bool) : State := { s with schedErr := x }

/-- The state with STATUS.SCHED_ERR_CODE replaced. -/
def State.setSchedErrCode (s : State) (x : Option Err) : State := { s with schedErrCode := x }

/-- The state with the codec registers replaced. -/
def State.setCodec (s : State) (x : CodecRegs) : State := { s with codec := x }

/-- The state with the WENC registers replaced. -/
def State.setWenc (s : State) (x : WencRegs) : State := { s with wenc := x }

/-- The state with the configuration replaced. -/
def State.setScfg (s : State) (x : ScfgRegs) : State := { s with scfg := x }

/-- The state with the fix record replaced. -/
def State.setFix (s : State) (x : FixRegs) : State := { s with fix := x }

/-- The state with the sensor record replaced. -/
def State.setSns (s : State) (x : SnsRegs) : State := { s with sns := x }

/-- The state with the scheduler status replaced. -/
def State.setSched (s : State) (x : SchedRegs) : State := { s with sched := x }

/-- The state with the snapshot replaced. -/
def State.setSnap (s : State) (x : Snapshot) : State := { s with snap := x }

/-- The state with TXBUF replaced. -/
def State.setTxbuf (s : State) (x : BitVec 324) : State := { s with txbuf := x }

/-- The state with the output trace replaced. -/
def State.setTrace (s : State) (x : List Event) : State := { s with trace := x }

/-- The state with the inputs to come replaced. -/
def State.setPending (s : State) (x : List Input) : State := { s with pending := x }

/-- The state with the returned values replaced. -/
def State.setReads (s : State) (x : List Word) : State := { s with reads := x }

/-- The state with the level of `rst` replaced. -/
def State.setInReset (s : State) (x : Bool) : State := { s with inReset := x }

/-! ### Output events and levels -/

/-- `emit EV`: append an event to the output trace (00_scope.md R10, 43_scheduler.md R289). -/
def State.emit (s : State) (e : Event) : State := s.setTrace (s.trace ++ [e])

/-- Emit RF_ENABLE(b) and set the level RF_ON with it: the two change only together (10_state.md R61, 43_scheduler.md R289). -/
def driveRf (b : Bool) (s : State) : State := (s.setSched { s.sched with rfOn := b }).emit (.rfEnable b)

/-- Emit TONE_CLOCK(b) and set the level TONE_RUN with it: the two change only together (10_state.md R61, 43_scheduler.md R289). -/
def driveToneClock (b : Bool) (s : State) : State := (s.setSched { s.sched with toneRun := b }).emit (.toneClock b)

/-! ### Raising an error and completing -/

/-- `raise E`, the PBC's only exception: LAST_ERR receives the code and nothing else changes. There is no handler, saved register or
return from it (60_exceptions.md R311, R312, R318, R319). -/
def raiseError (e : Err) (s : State) : State := s.setLastErr (some e)

/-- The end of a command that succeeded: LAST_ERR is 0 (60_exceptions.md R311). -/
def succeed (s : State) : State := s.setLastErr none

/-- The end of a command whose unit answered either its result registers (as a state) or an error; on an error no result register
is written (60_exceptions.md R311, R312). -/
def complete (s : State) (r : Except Err State) : State :=
  match r with
  | .ok t => succeed t
  | .error e => raiseError e s

/-- An access error: the sticky STATUS.ACCESS_ERR is set, LAST_ERR is not written, nothing else changes (60_exceptions.md R314). -/
def accessError (s : State) : State := s.setAccessErr true

/-! ### Hardware reset -/

/-- Every register, output level and the trace at its reset value; the inputs still to come and the values already returned are the
host's and stay (70_reset_and_hazards.md R340 to R342; log 4, DESIGN CHOICE, unsafe). -/
def hardReset (asserted : Bool) (s : State) : State :=
  ((State.reset.setPending s.pending).setReads s.reads).setInReset asserted

/-! ### The register window -/

/-- The offset of a register (10_state.md R22 to R60). -/
def regOffset : Reg → Offset
  | .id => 0x000#12
  | .cmd => 0x004#12
  | .status => 0x008#12
  | .callLo => 0x010#12
  | .callHi => 0x014#12
  | .grid => 0x018#12
  | .power => 0x01C#12
  | .lat => 0x020#12
  | .lon => 0x024#12
  | .locLo => 0x028#12
  | .locHi => 0x02C#12
  | .chan => 0x030#12
  | .subsq => 0x034#12
  | .alt => 0x038#12
  | .temp => 0x03C#12
  | .volt => 0x040#12
  | .speed => 0x044#12
  | .flags => 0x048#12
  | .ucallLo => 0x04C#12
  | .ucallHi => 0x050#12
  | .ugrid => 0x054#12
  | .upower => 0x058#12
  | .ucallInt => 0x05C#12
  | .uengInt => 0x060#12
  | .dchan => 0x064#12
  | .dsubsq => 0x068#12
  | .dalt => 0x06C#12
  | .dtemp => 0x070#12
  | .dvolt => 0x074#12
  | .dspeed => 0x078#12
  | .dflags => 0x07C#12
  | .packN => 0x080#12
  | .packM => 0x084#12
  | .packGrid => 0x088#12
  | .normLo => 0x08C#12
  | .normHi => 0x090#12
  | .fecbuf w => 0x0A0#12 + 4#12 * BitVec.ofNat 12 w
  | .ilvbuf w => 0x0C0#12 + 4#12 * BitVec.ofNat 12 w
  | .symbuf w => 0x100#12 + 4#12 * BitVec.ofNat 12 w
  | .scfgCtrl => 0x200#12
  | .scfgTmin => 0x204#12
  | .scfgCallLo => 0x208#12
  | .scfgCallHi => 0x20C#12
  | .scfgChan => 0x210#12
  | .scfgCorr => 0x214#12
  | .scfgNoff => 0x218#12
  | .scfgOff i => 0x220#12 + 4#12 * BitVec.ofNat 12 i
  | .fixTime => 0x300#12
  | .fixDate => 0x304#12
  | .fixLat => 0x308#12
  | .fixLon => 0x30C#12
  | .fixAlt => 0x310#12
  | .fixSats => 0x314#12
  | .fixSpeed => 0x318#12
  | .snsTemp => 0x340#12
  | .snsPress => 0x344#12
  | .snsVin => 0x348#12
  | .snsVsol => 0x34C#12
  | .snsLfront => 0x350#12
  | .snsLback => 0x354#12
  | .snsValid => 0x358#12
  | .schedState => 0x400#12
  | .txCursor => 0x404#12
  | .ppsCount => 0x408#12
  | .ppsLast => 0x40C#12
  | .schedFlags => 0x410#12
  | .offIndex => 0x414#12
  | .msgCallLo => 0x418#12
  | .msgCallHi => 0x41C#12
  | .msgGrid => 0x420#12
  | .msgPower => 0x424#12
  | .txBase => 0x428#12
  | .txCorr => 0x42C#12
  | .toneLast => 0x430#12
  | .snapTime => 0x440#12
  | .snapDate => 0x444#12
  | .snapLat => 0x448#12
  | .snapLon => 0x44C#12
  | .snapAlt => 0x450#12
  | .snapSats => 0x454#12
  | .snapSpeed => 0x458#12
  | .snapTemp => 0x45C#12
  | .snapPress => 0x460#12
  | .snapVin => 0x464#12
  | .snapVsol => 0x468#12
  | .snapLfront => 0x46C#12
  | .snapLback => 0x470#12
  | .txbuf w => 0x500#12 + 4#12 * BitVec.ofNat 12 w

/-- The access code of a register (10_state.md R20, R22 to R60). -/
def regAccess : Reg → Access
  | .id => .ro
  | .cmd => .wo
  | .status => .w1c
  | .callLo => .rw
  | .callHi => .rw
  | .grid => .rw
  | .power => .rw
  | .lat => .rw
  | .lon => .rw
  | .locLo => .ro
  | .locHi => .ro
  | .chan => .rw
  | .subsq => .rw
  | .alt => .rw
  | .temp => .rw
  | .volt => .rw
  | .speed => .rw
  | .flags => .rw
  | .ucallLo => .rw
  | .ucallHi => .rw
  | .ugrid => .rw
  | .upower => .rw
  | .ucallInt => .ro
  | .uengInt => .ro
  | .dchan => .ro
  | .dsubsq => .ro
  | .dalt => .ro
  | .dtemp => .ro
  | .dvolt => .ro
  | .dspeed => .ro
  | .dflags => .ro
  | .packN => .ro
  | .packM => .ro
  | .packGrid => .ro
  | .normLo => .ro
  | .normHi => .ro
  | .fecbuf _ => .ro
  | .ilvbuf _ => .ro
  | .symbuf _ => .ro
  | .scfgCtrl => .locked
  | .scfgTmin => .locked
  | .scfgCallLo => .locked
  | .scfgCallHi => .locked
  | .scfgChan => .locked
  | .scfgCorr => .locked
  | .scfgNoff => .locked
  | .scfgOff _ => .locked
  | .fixTime => .rw
  | .fixDate => .rw
  | .fixLat => .rw
  | .fixLon => .rw
  | .fixAlt => .rw
  | .fixSats => .rw
  | .fixSpeed => .rw
  | .snsTemp => .rw
  | .snsPress => .rw
  | .snsVin => .rw
  | .snsVsol => .rw
  | .snsLfront => .rw
  | .snsLback => .rw
  | .snsValid => .rw
  | .schedState => .ro
  | .txCursor => .ro
  | .ppsCount => .ro
  | .ppsLast => .ro
  | .schedFlags => .ro
  | .offIndex => .ro
  | .msgCallLo => .ro
  | .msgCallHi => .ro
  | .msgGrid => .ro
  | .msgPower => .ro
  | .txBase => .ro
  | .txCorr => .ro
  | .toneLast => .ro
  | .snapTime => .ro
  | .snapDate => .ro
  | .snapLat => .ro
  | .snapLon => .ro
  | .snapAlt => .ro
  | .snapSats => .ro
  | .snapSpeed => .ro
  | .snapTemp => .ro
  | .snapPress => .ro
  | .snapVin => .ro
  | .snapVsol => .ro
  | .snapLfront => .ro
  | .snapLback => .ro
  | .txbuf _ => .ro

/-- The control registers, in offset order (10_state.md section 1). -/
def controlRegs : List Reg :=
  [Reg.id, Reg.cmd, Reg.status]

/-- The codec operand and result registers, in offset order (10_state.md section 1). -/
def codecRegNames : List Reg :=
  [Reg.callLo, Reg.callHi, Reg.grid, Reg.power, Reg.lat, Reg.lon, Reg.locLo, Reg.locHi,
   Reg.chan, Reg.subsq, Reg.alt, Reg.temp, Reg.volt, Reg.speed, Reg.flags, Reg.ucallLo,
   Reg.ucallHi, Reg.ugrid, Reg.upower, Reg.ucallInt, Reg.uengInt, Reg.dchan, Reg.dsubsq, Reg.dalt,
   Reg.dtemp, Reg.dvolt, Reg.dspeed, Reg.dflags]

/-- The WENC registers, in offset order (10_state.md section 1). -/
def wencRegNames : List Reg :=
  [Reg.packN, Reg.packM, Reg.packGrid, Reg.normLo, Reg.normHi] ++
  (List.finRange 6).map Reg.fecbuf ++
  (List.finRange 6).map Reg.ilvbuf ++
  (List.finRange 11).map Reg.symbuf

/-- The configuration registers, in offset order (10_state.md section 1). -/
def scfgRegNames : List Reg :=
  [Reg.scfgCtrl, Reg.scfgTmin, Reg.scfgCallLo, Reg.scfgCallHi, Reg.scfgChan, Reg.scfgCorr, Reg.scfgNoff] ++
  (List.finRange 8).map Reg.scfgOff

/-- The fix and sensor registers, in offset order (10_state.md section 1). -/
def recordRegNames : List Reg :=
  [Reg.fixTime, Reg.fixDate, Reg.fixLat, Reg.fixLon, Reg.fixAlt, Reg.fixSats, Reg.fixSpeed, Reg.snsTemp,
   Reg.snsPress, Reg.snsVin, Reg.snsVsol, Reg.snsLfront, Reg.snsLback, Reg.snsValid]

/-- The scheduler status, snapshot and transmit buffer registers, in offset order (10_state.md section 1). -/
def schedRegNames : List Reg :=
  [Reg.schedState, Reg.txCursor, Reg.ppsCount, Reg.ppsLast, Reg.schedFlags, Reg.offIndex, Reg.msgCallLo, Reg.msgCallHi,
   Reg.msgGrid, Reg.msgPower, Reg.txBase, Reg.txCorr, Reg.toneLast, Reg.snapTime, Reg.snapDate, Reg.snapLat,
   Reg.snapLon, Reg.snapAlt, Reg.snapSats, Reg.snapSpeed, Reg.snapTemp, Reg.snapPress, Reg.snapVin, Reg.snapVsol,
   Reg.snapLfront, Reg.snapLback] ++
  (List.finRange 11).map Reg.txbuf

/-- Every register of the window, in offset order (10_state.md R22 to R60). -/
def allRegs : List Reg :=
  controlRegs ++ codecRegNames ++ wencRegNames ++ scfgRegNames ++ recordRegNames ++ schedRegNames

/-- The register at an offset, none where the window holds none (20_memory.md R74). -/
def regAt (off : Offset) : Option Reg := allRegs.find? (fun r => regOffset r == off)

/-- The 32-bit value a register reads as; reserved bits read 0, and no read has a side effect (10_state.md R20, R22 to R60;
20_memory.md R79). -/
def readReg (r : Reg) (s : State) : Word :=
  match r with
  | .id => 0x50420001#32
  | .cmd => 0#32
  | .status => statusWord s
  | .callLo => s.codec.callLo
  | .callHi => s.codec.callHi.setWidth 32
  | .grid => s.codec.grid
  | .power => s.codec.power.setWidth 32
  | .lat => s.codec.lat
  | .lon => s.codec.lon
  | .locLo => s.codec.locLo
  | .locHi => s.codec.locHi.setWidth 32
  | .chan => s.codec.chan.setWidth 32
  | .subsq => s.codec.subsq.setWidth 32
  | .alt => s.codec.alt
  | .temp => s.codec.temp
  | .volt => s.codec.volt
  | .speed => s.codec.speed
  | .flags => s.codec.flags.setWidth 32
  | .ucallLo => s.codec.ucallLo
  | .ucallHi => s.codec.ucallHi.setWidth 32
  | .ugrid => s.codec.ugrid
  | .upower => s.codec.upower.setWidth 32
  | .ucallInt => s.codec.ucallInt.setWidth 32
  | .uengInt => s.codec.uengInt.setWidth 32
  | .dchan => s.codec.dchan.setWidth 32
  | .dsubsq => s.codec.dsubsq.setWidth 32
  | .dalt => s.codec.dalt
  | .dtemp => s.codec.dtemp
  | .dvolt => s.codec.dvolt
  | .dspeed => s.codec.dspeed
  | .dflags => s.codec.dflags.setWidth 32
  | .packN => s.wenc.packN.setWidth 32
  | .packM => s.wenc.packM.setWidth 32
  | .packGrid => s.wenc.packGrid.setWidth 32
  | .normLo => s.wenc.normLo
  | .normHi => s.wenc.normHi.setWidth 32
  | .fecbuf w => bufWord s.wenc.fec w
  | .ilvbuf w => bufWord s.wenc.ilv w
  | .symbuf w => bufWord s.wenc.sym w
  | .scfgCtrl => s.scfg.ctrl.setWidth 32
  | .scfgTmin => s.scfg.tmin.setWidth 32
  | .scfgCallLo => s.scfg.callLo
  | .scfgCallHi => s.scfg.callHi.setWidth 32
  | .scfgChan => s.scfg.chan.setWidth 32
  | .scfgCorr => s.scfg.corr
  | .scfgNoff => s.scfg.noff.setWidth 32
  | .scfgOff i => offsetSlot s.scfg.off i
  | .fixTime => s.fix.time
  | .fixDate => s.fix.date
  | .fixLat => s.fix.lat
  | .fixLon => s.fix.lon
  | .fixAlt => s.fix.alt
  | .fixSats => s.fix.sats
  | .fixSpeed => s.fix.speed
  | .snsTemp => s.sns.temp
  | .snsPress => s.sns.press
  | .snsVin => s.sns.vin
  | .snsVsol => s.sns.vsol
  | .snsLfront => s.sns.lfront
  | .snsLback => s.sns.lback
  | .snsValid => s.sns.valid.setWidth 32
  | .schedState => (stateCode s.sched.state).setWidth 32
  | .txCursor => s.sched.cursor.setWidth 32
  | .ppsCount => s.sched.ppsCount
  | .ppsLast => s.sched.ppsLast
  | .schedFlags => schedFlagsWord s.sched
  | .offIndex => s.sched.offIndex.setWidth 32
  | .msgCallLo => s.sched.msgCallLo
  | .msgCallHi => s.sched.msgCallHi.setWidth 32
  | .msgGrid => s.sched.msgGrid
  | .msgPower => s.sched.msgPower.setWidth 32
  | .txBase => s.sched.txBase
  | .txCorr => s.sched.txCorr
  | .toneLast => s.sched.toneLast
  | .snapTime => s.snap.time
  | .snapDate => s.snap.date
  | .snapLat => s.snap.lat
  | .snapLon => s.snap.lon
  | .snapAlt => s.snap.alt
  | .snapSats => s.snap.sats
  | .snapSpeed => s.snap.speed
  | .snapTemp => s.snap.temp
  | .snapPress => s.snap.press
  | .snapVin => s.snap.vin
  | .snapVsol => s.snap.vsol
  | .snapLfront => s.snap.lfront
  | .snapLback => s.snap.lback
  | .txbuf w => bufWord s.txbuf w

/-- The new value of a register a host may store to, truncated to its field (10_state.md R20). A write to CMD runs a command and a
write to an RO register is an access error, so neither stores anything here (10_state.md R23, 60_exceptions.md R314). -/
def storeReg (r : Reg) (v : Word) (s : State) : State :=
  match r with
  | .id => s
  | .cmd => s
  | .status => writeStatus v s
  | .callLo => s.setCodec { s.codec with callLo := v }
  | .callHi => s.setCodec { s.codec with callHi := v.setWidth 16 }
  | .grid => s.setCodec { s.codec with grid := v }
  | .power => s.setCodec { s.codec with power := v.setWidth 8 }
  | .lat => s.setCodec { s.codec with lat := v }
  | .lon => s.setCodec { s.codec with lon := v }
  | .locLo => s
  | .locHi => s
  | .chan => s.setCodec { s.codec with chan := v.setWidth 16 }
  | .subsq => s.setCodec { s.codec with subsq := v.setWidth 16 }
  | .alt => s.setCodec { s.codec with alt := v }
  | .temp => s.setCodec { s.codec with temp := v }
  | .volt => s.setCodec { s.codec with volt := v }
  | .speed => s.setCodec { s.codec with speed := v }
  | .flags => s.setCodec { s.codec with flags := v.setWidth 2 }
  | .ucallLo => s.setCodec { s.codec with ucallLo := v }
  | .ucallHi => s.setCodec { s.codec with ucallHi := v.setWidth 16 }
  | .ugrid => s.setCodec { s.codec with ugrid := v }
  | .upower => s.setCodec { s.codec with upower := v.setWidth 8 }
  | .ucallInt => s
  | .uengInt => s
  | .dchan => s
  | .dsubsq => s
  | .dalt => s
  | .dtemp => s
  | .dvolt => s
  | .dspeed => s
  | .dflags => s
  | .packN => s
  | .packM => s
  | .packGrid => s
  | .normLo => s
  | .normHi => s
  | .fecbuf _ => s
  | .ilvbuf _ => s
  | .symbuf _ => s
  | .scfgCtrl => s.setScfg { s.scfg with ctrl := v.setWidth 2 }
  | .scfgTmin => s.setScfg { s.scfg with tmin := v.setWidth 4 }
  | .scfgCallLo => s.setScfg { s.scfg with callLo := v }
  | .scfgCallHi => s.setScfg { s.scfg with callHi := v.setWidth 16 }
  | .scfgChan => s.setScfg { s.scfg with chan := v.setWidth 16 }
  | .scfgCorr => s.setScfg { s.scfg with corr := v }
  | .scfgNoff => s.setScfg { s.scfg with noff := v.setWidth 4 }
  | .scfgOff i => s.setScfg { s.scfg with off := setOffsetSlot s.scfg.off i v }
  | .fixTime => s.setFix { s.fix with time := v }
  | .fixDate => s.setFix { s.fix with date := v }
  | .fixLat => s.setFix { s.fix with lat := v }
  | .fixLon => s.setFix { s.fix with lon := v }
  | .fixAlt => s.setFix { s.fix with alt := v }
  | .fixSats => s.setFix { s.fix with sats := v }
  | .fixSpeed => s.setFix { s.fix with speed := v }
  | .snsTemp => s.setSns { s.sns with temp := v }
  | .snsPress => s.setSns { s.sns with press := v }
  | .snsVin => s.setSns { s.sns with vin := v }
  | .snsVsol => s.setSns { s.sns with vsol := v }
  | .snsLfront => s.setSns { s.sns with lfront := v }
  | .snsLback => s.setSns { s.sns with lback := v }
  | .snsValid => s.setSns { s.sns with valid := v.setWidth 6 }
  | .schedState => s
  | .txCursor => s
  | .ppsCount => s
  | .ppsLast => s
  | .schedFlags => s
  | .offIndex => s
  | .msgCallLo => s
  | .msgCallHi => s
  | .msgGrid => s
  | .msgPower => s
  | .txBase => s
  | .txCorr => s
  | .toneLast => s
  | .snapTime => s
  | .snapDate => s
  | .snapLat => s
  | .snapLon => s
  | .snapAlt => s
  | .snapSats => s
  | .snapSpeed => s
  | .snapTemp => s
  | .snapPress => s
  | .snapVin => s
  | .snapVsol => s
  | .snapLfront => s
  | .snapLback => s
  | .txbuf _ => s

/-- An access must be 4 bytes wide at a multiple of 4 (20_memory.md R72, R73). -/
def accessAligned (off : Offset) (width : Nat) : Bool := width == 4 && off.toNat % 4 == 0

end Sys2Proof.Machine
end

