-- ==== Sys2Proof/Machine/Loc.lean ====
section
/-! DEFINITION. The LOC unit's command: LOCATE (40_locator.md R120, R126). -/

namespace Sys2Proof.Machine

/-- The state with the result of LOCATE written (40_locator.md R126). -/
def writeLocator (loc : Str6) (s : State) : State :=
  s.setCodec { s.codec with locLo := strLo loc, locHi := strHi loc }

/-- LOCATE: (LAT, LON) to LOC_LO, LOC_HI, or CoordOutOfRange (40_locator.md R120). -/
def execLocate (s : State) : Host.Outcome State Fault Refusal :=
  .next (complete s ((locate s.codec.lat s.codec.lon).map fun loc => writeLocator loc s))

end Sys2Proof.Machine
end

