-- ==== Sys2Proof/Machine/Sched.lean ====
section
/-! DEFINITION. The SCHED unit's commands: SCHED_TICK, TONE_TICK, PPS_EDGE, SCHED_RESET, and NOP (43_scheduler.md). -/

namespace Sys2Proof.Machine

/-! ### CollectTelemetry: building the message (43_scheduler.md R252 to R259) -/

/-- A telemetry cycle: MODE = 1 and the units digit of the minute is TMIN (43_scheduler.md R253). -/
def telemetryCycle (c : ScfgRegs) (f : FixRegs) : Bool :=
  modeU4b c && f.time.toNat / 100 % 10 == c.tmin.toNat

/-- Whether this cycle samples: a beacon cycle, or a telemetry cycle whose snapshot voltages are both zero (43_scheduler.md R254). -/
def mustSample (telem : Bool) (snap : Snapshot) : Bool := !telem || (snap.vin == 0 && snap.vsol == 0)

/-- A sensor reading if its SNS_VALID bit is 1, else the previous value (43_scheduler.md R255). -/
def validOr (valid : BitVec 6) (bit : Nat) (reading previous : Word) : Word := if valid.getLsbD bit then reading else previous

/-- `sample(S)`: every fix field, and every sensor field that is valid (43_scheduler.md R255). -/
def sample (f : FixRegs) (n : SnsRegs) (old : Snapshot) : Snapshot where
  time := f.time
  date := f.date
  lat := f.lat
  lon := f.lon
  alt := f.alt
  sats := f.sats
  speed := f.speed
  temp := validOr n.valid 0 n.temp old.temp
  press := validOr n.valid 1 n.press old.press
  vin := validOr n.valid 2 n.vin old.vin
  vsol := validOr n.valid 3 n.vsol old.vsol
  lfront := validOr n.valid 4 n.lfront old.lfront
  lback := validOr n.valid 5 n.lback old.lback

/-- The operands a message gives the encoder (43_scheduler.md R256, R257). -/
structure MessageText where
  callLo : Word
  callHi : BitVec 16
  grid : Word
  power : Byte
  deriving DecidableEq, Repr

/-- A built message: what the commit writes (43_scheduler.md R258). -/
structure Message where
  telem : Bool
  snap : Snapshot
  text : MessageText
  sym : BitVec 324
  deriving DecidableEq, Repr

/-- A beacon: the configured callsign, the coarse locator, power 10 (43_scheduler.md R256). -/
def beaconText (c : ScfgRegs) (loc : Str6) : MessageText := ⟨c.callLo, c.callHi, strLo loc, Config.beaconPower⟩

/-- The GPS-health bit: at least 8 satellites (43_scheduler.md R257). -/
def snapHealth (snap : Snapshot) : Bool := Config.healthSats ≤ snap.sats.toNat

/-- The orientation bit: front light at least back light, unsigned (43_scheduler.md R257). -/
def snapOrient (snap : Snapshot) : Bool := snap.lback.toNat ≤ snap.lfront.toNat

/-- A telemetry frame: the pseudo-callsign and the encoded grid and power (43_scheduler.md R257). -/
def telemetryText (c : ScfgRegs) (snap : Snapshot) (loc : Str6) : Except Err MessageText :=
  match encCall c.chan (half2 loc.c4 loc.c5) snap.alt with
  | .error e => .error e
  | .ok f =>
    let g := encEng snap.temp snap.vin snap.speed (snapOrient snap) (snapHealth snap)
    .ok ⟨strLo f.call, strHi f.call, g.grid, g.power⟩

/-- The message's operands by its type (43_scheduler.md R252). -/
def messageText (telem : Bool) (c : ScfgRegs) (snap : Snapshot) (loc : Str6) : Except Err MessageText :=
  if telem then telemetryText c snap loc else .ok (beaconText c loc)

/-- The snapshot the message is built from (43_scheduler.md R252, R254). -/
def messageSnap (telem : Bool) (s : State) : Snapshot :=
  if mustSample telem s.snap then sample s.fix s.sns s.snap else s.snap

/-- The build of 43_scheduler.md R252: nothing is written, and the first error ends it (60_exceptions.md R313). -/
def buildMessage (s : State) : Except Err Message :=
  let telem := telemetryCycle s.scfg s.fix
  let snap := messageSnap telem s
  match locate snap.lat snap.lon with
  | .error e => .error e
  | .ok loc =>
    match messageText telem s.scfg snap loc with
    | .error e => .error e
    | .ok text =>
      match wsprEncode text.callLo text.callHi text.grid text.power with
      | .error e => .error e
      | .ok w => .ok ⟨telem, snap, text, w.sym⟩

/-- The log event of a message: FIX_DATE, FIX_TIME, the call as its original string, grid and power (43_scheduler.md R258). -/
def logEvent (s : State) (t : MessageText) : Event :=
  .log s.fix.date s.fix.time (nulTerminated t.callLo t.callHi) t.grid t.power

/-- The commit of a built message, then the log event if LOG_EN = 1 (43_scheduler.md R258). -/
def commitMessage (m : Message) (s : State) : State :=
  let t := ((s.setSnap m.snap).setTxbuf m.sym).setSched { s.sched with
    msgCallLo := m.text.callLo
    msgCallHi := m.text.callHi
    msgGrid := m.text.grid
    msgPower := m.text.power
    msgTelem := m.telem
    msgValid := true
    state := .waitForTransmit }
  if logEnabled s.scfg then t.emit (logEvent s m.text) else t

/-- A failed build: SCHED_ERR, SCHED_ERR_CODE and LAST_ERR record it, and the state stays (43_scheduler.md R259). -/
def buildFailed (e : Err) (s : State) : State := raiseError e ((s.setSchedErr true).setSchedErrCode (some e))

/-! ### The transitions of SCHED_TICK (43_scheduler.md R241) -/

/-- `state <- S` (00_scope.md R10). -/
def moveTo (x : SchedState) (s : State) : State := s.setSched { s.sched with state := x }

/-- FIX_LAT and FIX_LON are both exactly 0: no fix (43_scheduler.md R251, R260). -/
def noFix (f : FixRegs) : Bool := f.lat == 0 && f.lon == 0

/-- A tick ends with `PPS_LAST <- p` (43_scheduler.md R248). -/
def samplePps (p : Word) (s : State) : State := s.setSched { s.sched with ppsLast := p }

/-- Init: ConfigInvalid while CFG_ERR = 1, else T1 with both PPS registers cleared (43_scheduler.md R249). -/
def tickInit (p : Word) (s : State) : State :=
  if cfgErr s then samplePps p (raiseError .configInvalid s)
  else s.setSched { s.sched with state := .waitForTime, ppsCount := 0, ppsLast := 0 }

/-- WaitForTime: T2, comparing without wrapping (43_scheduler.md R250). -/
def tickWaitForTime (p : Word) (s : State) : State :=
  if p.toNat + Config.waittimeMargin < s.fix.time.toNat ∧ 0 < s.fix.sats.toNat then moveTo .waitForFix s else s

/-- The one-time RADIO_CONFIGURE (43_scheduler.md R251). -/
def configureRadioOnce (s : State) : State :=
  if s.sched.radioCfgd then s else (s.setSched { s.sched with radioCfgd := true }).emit .radioConfigure

/-- WaitForFix: T3 (43_scheduler.md R251). -/
def tickWaitForFix (s : State) : State :=
  if noFix s.fix then s else moveTo .collectTelemetry (configureRadioOnce s)

/-- CollectTelemetry: T4, or a recorded failure (43_scheduler.md R252, R258, R259). -/
def tickCollectTelemetry (s : State) : State :=
  match buildMessage s with
  | .ok m => commitMessage m s
  | .error e => buildFailed e s

/-- WaitForTransmit: T5, fix loss, before T6, second 59 of an odd minute (43_scheduler.md R260, R261). -/
def tickWaitForTransmit (s : State) : State :=
  if noFix s.fix then s.setSched { s.sched with state := .waitForFix, msgValid := false }
  else if minuteOf s.fix.time % 2 = 1 ∧ secondOf s.fix.time = 59 then moveTo .awaitPps s
  else s

/-- The rotated offset index `(OFF_INDEX + 1) mod NOFF` (43_scheduler.md R266; log 12, DESIGN CHOICE, unsafe for a NOFF no run reaches). -/
def nextOffIndex (c : ScfgRegs) (i : BitVec 3) : BitVec 3 := BitVec.ofNat 3 ((i.toNat + 1) % c.noff.toNat)

/-- Arm: latch offset and correction, rotate, clear the cursor, start the tone clock (43_scheduler.md R264 to R266). -/
def arm (s : State) : State :=
  driveToneClock true (s.setSched { s.sched with
    txBase := offsetSlot s.scfg.off s.sched.offIndex.toFin
    txCorr := s.scfg.corr
    offIndex := nextOffIndex s.scfg s.sched.offIndex
    cursor := 0
    state := .transmitting })

/-- AwaitPps: T7, on an edge counted since the previous tick (43_scheduler.md R263). -/
def tickAwaitPps (p : Word) (s : State) : State := if p ≠ s.sched.ppsLast then arm s else s

/-- Transmitting: T8, once all symbols have been keyed (43_scheduler.md R267). -/
def tickTransmitting (s : State) : State :=
  if s.sched.cursor = 162#8 then s.setSched { s.sched with state := .collectTelemetry, msgValid := false } else s

/-- SCHED_TICK: at most one row of the transition table, then `PPS_LAST <- p` in every state but after T1
(43_scheduler.md R244, R248, R249). -/
def execSchedTick (s : State) : Host.Outcome State Fault Refusal :=
  let p := s.sched.ppsCount
  let t := succeed s
  match s.sched.state with
  | .init => .next (tickInit p t)
  | .waitForTime => .next (samplePps p (tickWaitForTime p t))
  | .waitForFix => .next (samplePps p (tickWaitForFix t))
  | .collectTelemetry => .next (samplePps p (tickCollectTelemetry t))
  | .waitForTransmit => .next (samplePps p (tickWaitForTransmit t))
  | .awaitPps => .next (samplePps p (tickAwaitPps p t))
  | .transmitting => .next (samplePps p (tickTransmitting t))

/-! ### TONE_TICK (43_scheduler.md R270 to R278) -/

/-- A tone tick acts only in Transmitting with the tone clock armed and a symbol left (43_scheduler.md R271). -/
def toneActive (c : SchedRegs) : Bool := c.state == .transmitting && c.toneRun && decide (c.cursor.toNat < 162)

/-- The tone offset of a symbol: `(TX_BASE + s * 1465) mod 2^32` (43_scheduler.md R270, R274, R276). -/
def toneOffset (base : Word) (sym : BitVec 2) : Word := base + sym.setWidth 32 * Config.toneStepMHz

/-- The symbol to key: symbol TX_CURSOR of TXBUF (43_scheduler.md R273). -/
def currentSymbol (s : State) : BitVec 2 := symbolAt s.txbuf s.sched.cursor.toNat

/-- The first tone tick of a message enables the RF output (43_scheduler.md R272). -/
def startRf (s : State) : State := if s.sched.cursor = 0#8 then driveRf true s else s

/-- Emit SET_TONE and record its offset (43_scheduler.md R274). -/
def setTone (s : State) : State :=
  let off := toneOffset s.sched.txBase (currentSymbol s)
  (s.setSched { s.sched with toneLast := off }).emit (.setTone off s.sched.txCorr)

/-- TX_CURSOR advances by one (43_scheduler.md R277). -/
def advanceCursor (s : State) : State := s.setSched { s.sched with cursor := s.sched.cursor + 1 }

/-- The tone tick that makes TX_CURSOR 162 disables RF and stops the tone clock (43_scheduler.md R278). -/
def finishTones (s : State) : State := if s.sched.cursor = 162#8 then driveToneClock false (driveRf false s) else s

/-- One active tone tick (43_scheduler.md R270). -/
def keySymbol (s : State) : State := finishTones (advanceCursor (setTone (startRf s)))

/-- TONE_TICK: key one symbol, or nothing but LAST_ERR outside a transmission (43_scheduler.md R270, R271). -/
def execToneTick (s : State) : Host.Outcome State Fault Refusal :=
  let t := succeed s
  .next (if toneActive t.sched then keySymbol t else t)

/-! ### PPS_EDGE, NOP, SCHED_RESET (43_scheduler.md R283 to R287) -/

/-- PPS_EDGE: PPS_COUNT counts modulo 2^32 (43_scheduler.md R283). -/
def execPpsEdge (s : State) : Host.Outcome State Fault Refusal :=
  .next (succeed (s.setSched { s.sched with ppsCount := s.sched.ppsCount + 1 }))

/-- NOP: LAST_ERR is cleared and nothing else changes (43_scheduler.md R285). -/
def execNop (s : State) : Host.Outcome State Fault Refusal := .next (succeed s)

/-- SCHED_RESET: the scheduler status, message, snapshot and TXBUF registers are 0, RF_ENABLE(0) and TONE_CLOCK(0) are emitted
whatever the levels were; SCHED_ERR and SCHED_ERR_CODE stay (43_scheduler.md R287). -/
def execSchedReset (s : State) : Host.Outcome State Fault Refusal :=
  .next (succeed (driveToneClock false (driveRf false (((s.setSched .reset).setSnap .reset).setTxbuf 0))))

end Sys2Proof.Machine
end

