-- ==== Sys2Proof/Machine/U4b.lean ====
section
/-! DEFINITION. The U4B unit's commands: U4B_ENC_CALL, U4B_ENC_ENG, U4B_DEC_CALL, U4B_DEC_ENG (42_u4b_codec.md R190, R198, R216,
R210). -/

namespace Sys2Proof.Machine

/-- FLAGS.HEALTH (10_state.md R33). -/
def healthFlag (s : State) : Bool := s.codec.flags.getLsbD 0

/-- FLAGS.ORIENT (10_state.md R33). -/
def orientFlag (s : State) : Bool := s.codec.flags.getLsbD 1

/-- The state with the result of U4B_ENC_CALL written (42_u4b_codec.md R197). -/
def writeCallFrame (f : CallFrame) (s : State) : State :=
  s.setCodec { s.codec with ucallLo := strLo f.call, ucallHi := strHi f.call, ucallInt := BitVec.ofNat 20 f.t }

/-- The state with the result of U4B_ENC_ENG written (42_u4b_codec.md R207). -/
def writeEngFrame (f : EngFrame) (s : State) : State :=
  s.setCodec { s.codec with ugrid := f.grid, upower := f.power, uengInt := BitVec.ofNat 20 f.t }

/-- The state with the result of U4B_DEC_ENG written (42_u4b_codec.md R215). -/
def writeEngValues (v : EngValues) (s : State) : State :=
  s.setCodec { s.codec with
    dtemp := BitVec.ofInt 32 v.temp
    dvolt := BitVec.ofNat 32 v.volt
    dspeed := BitVec.ofNat 32 v.speed
    dflags := BitVec.ofBool v.orient ++ BitVec.ofBool v.health
    uengInt := BitVec.ofNat 20 v.t }

/-- The state with the result of U4B_DEC_CALL written (42_u4b_codec.md R221). -/
def writeCallValues (v : CallValues) (s : State) : State :=
  s.setCodec { s.codec with
    dchan := v.chan
    dsubsq := v.subsq
    dalt := BitVec.ofNat 32 v.alt
    ucallInt := BitVec.ofNat 20 v.t }

/-- U4B_ENC_CALL: (CHAN, SUBSQ, ALT) to UCALL and UCALL_INT, or the first failed check (42_u4b_codec.md R190). -/
def execU4bEncCall (s : State) : Host.Outcome State Fault Refusal :=
  .next (complete s ((encCall s.codec.chan s.codec.subsq s.codec.alt).map fun f => writeCallFrame f s))

/-- U4B_ENC_ENG: (TEMP, VOLT, SPEED, FLAGS) to UGRID, UPOWER and UENG_INT; it has no error (42_u4b_codec.md R198). -/
def execU4bEncEng (s : State) : Host.Outcome State Fault Refusal :=
  .next (succeed (writeEngFrame
    (encEng s.codec.temp s.codec.volt s.codec.speed (orientFlag s) (healthFlag s)) s))

/-- U4B_DEC_CALL: UCALL to DCHAN, DSUBSQ, DALT and UCALL_INT, or the first failed check (42_u4b_codec.md R216). -/
def execU4bDecCall (s : State) : Host.Outcome State Fault Refusal :=
  .next (complete s ((decCall (str6Of s.codec.ucallLo s.codec.ucallHi)).map fun v => writeCallValues v s))

/-- U4B_DEC_ENG: (UGRID, UPOWER) to DTEMP, DVOLT, DSPEED, DFLAGS and UENG_INT, or the first failed check
(42_u4b_codec.md R210). -/
def execU4bDecEng (s : State) : Host.Outcome State Fault Refusal :=
  .next (complete s ((decEng s.codec.ugrid s.codec.upower).map fun v => writeEngValues v s))

end Sys2Proof.Machine
end

