-- ==== Sys2Proof/Machine/Wenc.lean ====
section
/-! DEFINITION. The WENC unit's command: WSPR_ENCODE (41_wspr_encoder.md R140, R162). -/

namespace Sys2Proof.Machine

/-- WSPR_ENCODE: (CALL, GRID, POWER) to NORM, PACK_*, FECBUF, ILVBUF and SYMBUF, or the first failed check
(41_wspr_encoder.md R140, R162). -/
def execWsprEncode (s : State) : Host.Outcome State Fault Refusal :=
  .next (complete s
    ((wsprEncode s.codec.callLo s.codec.callHi s.codec.grid s.codec.power).map fun w => s.setWenc w))

end Sys2Proof.Machine
end

