-- ==== Sys2Proof/Machine/Dispatch.lean ====
section
/-! DEFINITION. Which meaning each command has: one arm per constructor of Instr (30_encoding.md R91). -/

namespace Sys2Proof.Machine

/-- The effect of one command (30_encoding.md R91, R100). -/
def exec (i : Instr) (s : State) : Host.Outcome State Fault Refusal :=
  match i with
  | .nop => Sys2Proof.Machine.execNop s
  | .locate => Sys2Proof.Machine.execLocate s
  | .wsprEncode => Sys2Proof.Machine.execWsprEncode s
  | .u4bEncCall => Sys2Proof.Machine.execU4bEncCall s
  | .u4bEncEng => Sys2Proof.Machine.execU4bEncEng s
  | .u4bDecCall => Sys2Proof.Machine.execU4bDecCall s
  | .u4bDecEng => Sys2Proof.Machine.execU4bDecEng s
  | .schedTick => Sys2Proof.Machine.execSchedTick s
  | .toneTick => Sys2Proof.Machine.execToneTick s
  | .ppsEdge => Sys2Proof.Machine.execPpsEdge s
  | .schedReset => Sys2Proof.Machine.execSchedReset s

end Sys2Proof.Machine
end

