-- ==== Sys2Proof/Machine/Bus.lean ====
section
/-! DEFINITION. How an input takes effect: a command written to CMD, a host write, a host read, a pin edge, the reset pin
(20_memory.md R70 to R80, 30_encoding.md R90 to R101, 60_exceptions.md R314, 70_reset_and_hazards.md R340). -/

namespace Sys2Proof.Machine

/-- A word written to CMD: the command it selects, or IllegalCommand (30_encoding.md R90 to R92). -/
def runCommandWord (w : Word) (s : State) : Host.Outcome State Fault Refusal :=
  match decode w with
  | .ok i => exec i s
  | .error _ => .next (raiseError .illegalCommand s)

/-- A well-aligned write to register `r`, by its access code (10_state.md R20, 60_exceptions.md R314). -/
def writeRegister (r : Reg) (v : Word) (s : State) : Host.Outcome State Fault Refusal :=
  match regAccess r with
  | .rw => .next (storeReg r v s)
  | .w1c => .next (storeReg r v s)
  | .locked => .next (if s.sched.state = .init then storeReg r v s else accessError s)
  | .ro => .next (accessError s)
  | .wo => runCommandWord v s

/-- `MemWrite(off, width, v)` (20_memory.md R71 to R74). -/
def memWrite (off : Offset) (width : Nat) (v : Word) (s : State) : Host.Outcome State Fault Refusal :=
  if accessAligned off width then
    match regAt off with
    | some r => writeRegister r v s
    | none => .next (accessError s)
  else .next (accessError s)

/-- The host receives a value (20_memory.md R71; log 3, DESIGN CHOICE, safe). -/
def returnValue (v : Word) (s : State) : State := s.setReads (s.reads ++ [v])

/-- `MemRead(off, width)`: the register's value, or 0 with ACCESS_ERR set (20_memory.md R71 to R74, 60_exceptions.md R314). -/
def memRead (off : Offset) (width : Nat) (s : State) : State :=
  if accessAligned off width then
    match regAt off with
    | some r => returnValue (readReg r s) s
    | none => returnValue 0 (accessError s)
  else returnValue 0 (accessError s)

/-- An input while `rst` is released: an edge on `pps_in` is one PPS_EDGE, an edge on `tone_tick_in` one TONE_TICK
(30_encoding.md R101); asserting `rst` resets, releasing it again is no change (70_reset_and_hazards.md R340; log 4, DESIGN CHOICE, unsafe). -/
def acceptInput (i : Input) (s : State) : Host.Outcome State Fault Refusal :=
  match i with
  | .read off width => .next (memRead off width s)
  | .write off width v => memWrite off width v s
  | .ppsIn => exec .ppsEdge s
  | .toneTickIn => exec .toneTick s
  | .rst asserted => .next (if asserted then hardReset true s else s)

/-- An input while `rst` is asserted: no access or event takes effect, and when `rst` is released every register holds its reset
value (70_reset_and_hazards.md R340; log 4, DESIGN CHOICE, unsafe). -/
def inputInReset (i : Input) (s : State) : State :=
  match i with
  | .rst asserted => if asserted then s else hardReset false s
  | .read _ _ => s
  | .write _ _ _ => s
  | .ppsIn => s
  | .toneTickIn => s

/-- One input takes effect, wholly (20_memory.md R78). -/
def deliver (i : Input) (s : State) : Host.Outcome State Fault Refusal :=
  if s.inReset then .next (inputInReset i s) else acceptInput i s

/-- The next input takes effect; with none pending the PBC does nothing (20_memory.md R80, 60_exceptions.md R329,
70_reset_and_hazards.md R342; log 2, DEDUCED, safe). -/
def serve (s : State) : Host.Outcome State Fault Refusal :=
  match s.pending with
  | [] => .next s
  | i :: rest => deliver i (s.setPending rest)

/-- The offset of CMD (10_state.md R23). -/
def cmdOffset : Offset := 0x004#12

/-- The input by which a host issues a command word (30_encoding.md R90, R102). -/
def commandInput (w : Word) : Input := .write cmdOffset 4 w

/-- `s` with a command word as the very next input, and `rst` released (log 1, DESIGN CHOICE, safe). -/
def issueNext (w : Word) (s : State) : State := (s.setPending (commandInput w :: s.pending)).setInReset false

end Sys2Proof.Machine
end

