-- ==== Sys2Proof/Machine/Step.lean ====
section
/-! DEFINITION. One step of the PBC: the next input of the total order takes effect (20_memory.md R78, R80). The PBC fetches no
instruction (20_memory.md R83): a command reaches it as a host write to CMD, so that write is what withFetchWord puts next. -/

namespace Sys2Proof.Machine

/-- One step (20_memory.md R80). -/
def step (s : State) : Host.Outcome State Fault Refusal := serve s

/-- `s` with the command word made of the low `nbits` bits of `w` as the very next input (log 1, DESIGN CHOICE, safe). -/
def State.withFetchWord (s : State) (nbits w : Nat) : State := issueNext (BitVec.ofNat 32 (w % 2 ^ nbits)) s

end Sys2Proof.Machine
end

