-- ==== Sys2Proof/Machine/Script.lean ====
section
/-! DEFINITION. Command scripts: the statements of 30_encoding.md R102 and the pseudo-statements of R103 as the inputs they stand for.
A script is the list of its inputs in written order (30_encoding.md R104). -/

namespace Sys2Proof.Machine

/-- `wr NAME, v` (30_encoding.md R102). -/
def scriptWr (r : Reg) (v : Word) : List Input := [.write (regOffset r) 4 v]

/-- `rd NAME`; `rd NAME == v` is the same read with an assertion of the test, not of the PBC (30_encoding.md R102). -/
def scriptRd (r : Reg) : List Input := [.read (regOffset r) 4]

/-- `cmd MNEMONIC` (30_encoding.md R102). -/
def scriptCmd (i : Instr) : List Input := [commandInput (encode i)]

/-- `edge pps` (30_encoding.md R102). -/
def scriptEdgePps : List Input := [.ppsIn]

/-- `edge tone` (30_encoding.md R102). -/
def scriptEdgeTone : List Input := [.toneTickIn]

/-- Character `i` of a string padded with NUL bytes (30_encoding.md R103). -/
def paddedChar (s : List Char) (i : Nat) : Byte := (s.map chr).getD i chNul

/-- A string of up to six characters padded with NUL bytes (30_encoding.md R103). -/
def paddedStr6 (s : List Char) : Str6 where
  c0 := paddedChar s 0
  c1 := paddedChar s 1
  c2 := paddedChar s 2
  c3 := paddedChar s 3
  c4 := paddedChar s 4
  c5 := paddedChar s 5

/-- `wrstr6 P, "s"` on the register pair `lo`, `hi` (30_encoding.md R103). -/
def scriptWrstr6 (lo hi : Reg) (s : List Char) : List Input :=
  scriptWr lo (strLo (paddedStr6 s)) ++ scriptWr hi ((strHi (paddedStr6 s)).setWidth 32)

/-- `wrstr NAME, "s"` with up to four characters (30_encoding.md R103). -/
def scriptWrstr (r : Reg) (s : List Char) : List Input := scriptWr r (strLo (paddedStr6 (s.take 4)))

/-- `repeat n { ... }` (30_encoding.md R103). -/
def scriptRepeat (n : Nat) (body : List Input) : List Input := (List.replicate n body).flatten

/-- `tick` (30_encoding.md R103). -/
def scriptTick : List Input := scriptCmd .schedTick

/-- `setfix t, lat, lon, alt, sats, spd` (30_encoding.md R103). -/
def scriptSetfix (time lat lon alt sats speed : Word) : List Input :=
  scriptWr .fixTime time ++ scriptWr .fixLat lat ++ scriptWr .fixLon lon ++ scriptWr .fixAlt alt ++
    scriptWr .fixSats sats ++ scriptWr .fixSpeed speed

end Sys2Proof.Machine
end

