-- ==== Sys2Proof/Safety.lean ====
section
/-! DEFINITION. The terms in which claims are stated: the invariant of a PBC that has run only from states like its reset state, the
levels an output trace stands for, running a list of commands, frames in terms of what the host reads, and interleavings of agents. -/

namespace Sys2Proof.Machine

/-! ### Levels read off the output trace -/

/-- The level after one event, as RF_ENABLE sets it (43_scheduler.md R289). -/
def rfAfter (level : Bool) : Event → Bool
  | .rfEnable b => b
  | .radioConfigure => level
  | .setTone _ _ => level
  | .toneClock _ => level
  | .log _ _ _ _ _ => level

/-- The level after one event, as TONE_CLOCK sets it (43_scheduler.md R289). -/
def clockAfter (level : Bool) : Event → Bool
  | .toneClock b => b
  | .radioConfigure => level
  | .setTone _ _ => level
  | .rfEnable _ => level
  | .log _ _ _ _ _ => level

/-- The level of the last RF_ENABLE of a trace; disabled at its start (43_scheduler.md R289, 70_reset_and_hazards.md R341). -/
def rfLevel (trace : List Event) : Bool := trace.foldl rfAfter false

/-- The level of the last TONE_CLOCK of a trace; stopped at its start (43_scheduler.md R289, 70_reset_and_hazards.md R341). -/
def clockLevel (trace : List Event) : Bool := trace.foldl clockAfter false

/-! ### The invariant -/

/-- A message is pending or in flight in these states (10_state.md R55). -/
def messageState : SchedState → Bool
  | .waitForTransmit => true
  | .awaitPps => true
  | .transmitting => true
  | .init => false
  | .waitForTime => false
  | .waitForFix => false
  | .collectTelemetry => false

/-- The invariant of the PBC: it holds at reset and every step keeps it. -/
structure Inv (s : State) : Prop where
  /-- TX_CURSOR is 0..162 (10_state.md R52). -/
  cursor_le : s.sched.cursor.toNat ≤ 162
  /-- The tone clock runs exactly while a transmission has symbols left (43_scheduler.md R264, R278). -/
  toneRun_iff : s.sched.toneRun = (decide (s.sched.state = .transmitting) && decide (s.sched.cursor.toNat < 162))
  /-- RF is on exactly while the tone clock runs and a symbol has been keyed (43_scheduler.md R272, R278). -/
  rfOn_iff : s.sched.rfOn = (s.sched.toneRun && decide (0 < s.sched.cursor.toNat))
  /-- MSG_VALID is 1 exactly while a built message is pending or in flight (10_state.md R55). -/
  msgValid_iff : s.sched.msgValid = messageState s.sched.state
  /-- Outside Init the configuration is valid (43_scheduler.md R246, R249). -/
  cfg_valid : s.sched.state ≠ .init → cfgValid s.scfg = true
  /-- Outside Init OFF_INDEX selects an active slot (10_state.md R56, 43_scheduler.md R266). -/
  offIndex_lt : s.sched.state ≠ .init → s.sched.offIndex.toNat < s.scfg.noff.toNat
  /-- In Init OFF_INDEX is 0 (43_scheduler.md R266). -/
  offIndex_init : s.sched.state = .init → s.sched.offIndex = 0
  /-- The latched base leaves room for three tone steps (43_scheduler.md R276). -/
  txBase_le : s.sched.state = .transmitting → s.sched.txBase.toNat ≤ Config.offsetMax
  /-- TXBUF holds the symbols of the message in the MSG registers (10_state.md R57, R60; 43_scheduler.md R258). -/
  txbuf_encodes : s.sched.msgValid = true →
    ∃ w, wsprEncode s.sched.msgCallLo s.sched.msgCallHi s.sched.msgGrid s.sched.msgPower = .ok w ∧ w.sym = s.txbuf
  /-- RF_ON is the level of the last RF_ENABLE event (43_scheduler.md R289). -/
  rf_level : s.sched.rfOn = rfLevel s.trace
  /-- TONE_RUN is the level of the last TONE_CLOCK event (43_scheduler.md R289). -/
  clock_level : s.sched.toneRun = clockLevel s.trace

/-! ### Runs and frames -/

/-- Commands one after the other, stopping at a fault or a refusal. -/
def execAll : List Instr → State → Host.Outcome State Fault Refusal
  | [], s => .next s
  | i :: is, s =>
    match exec i s with
    | .next t => execAll is t
    | .fault r => .fault r
    | .refused r => .refused r

/-- Every register but those listed, and STATUS, reads as before. -/
def readsSameBut (dests : List Reg) (s t : State) : Prop := ∀ r, r ∉ dests → r ≠ .status → readReg r t = readReg r s

/-- The bits of STATUS other than LAST_ERR, that is ACCESS_ERR, SCHED_ERR, CFG_ERR and SCHED_ERR_CODE, are as before. -/
def statusSameButLastErr (s t : State) : Prop :=
  t.accessErr = s.accessErr ∧ t.schedErr = s.schedErr ∧ t.schedErrCode = s.schedErrCode ∧ cfgErr t = cfgErr s

/-- The inputs to come, the values returned and the reset pin are as before. -/
def interfaceSame (s t : State) : Prop := t.pending = s.pending ∧ t.reads = s.reads ∧ t.inReset = s.inReset

/-- The frame of a command: every register but `dests` and STATUS, every STATUS bit but LAST_ERR, and the interface are as before. -/
structure CommandFrame (dests : List Reg) (s t : State) : Prop where
  regs : readsSameBut dests s t
  status : statusSameButLastErr s t
  interface : interfaceSame s t

/-- The registers a command writes when it succeeds (30_encoding.md R100), for the commands of the LOC, WENC and U4B units and NOP
and PPS_EDGE. -/
def resultRegs : Instr → List Reg
  | .nop => []
  | .locate => [.locLo, .locHi]
  | .wsprEncode => [.normLo, .normHi, .packN, .packGrid, .packM] ++ (List.finRange 6).map Reg.fecbuf ++
      (List.finRange 6).map Reg.ilvbuf ++ (List.finRange 11).map Reg.symbuf
  | .u4bEncCall => [.ucallLo, .ucallHi, .ucallInt]
  | .u4bEncEng => [.ugrid, .upower, .uengInt]
  | .u4bDecCall => [.dchan, .dsubsq, .dalt, .ucallInt]
  | .u4bDecEng => [.dtemp, .dvolt, .dspeed, .dflags, .uengInt]
  | .schedTick => schedRegNames
  | .toneTick => [.txCursor, .toneLast, .schedFlags]
  | .ppsEdge => [.ppsCount]
  | .schedReset => schedRegNames

/-- The bits of a register that are not reserved, for the registers a host may store to (10_state.md R25 to R50). -/
def fieldMask : Reg → Word
  | .callHi => 0x0000FFFF#32
  | .power => 0x000000FF#32
  | .chan => 0x0000FFFF#32
  | .subsq => 0x0000FFFF#32
  | .flags => 0x00000003#32
  | .ucallHi => 0x0000FFFF#32
  | .upower => 0x000000FF#32
  | .scfgCtrl => 0x00000003#32
  | .scfgTmin => 0x0000000F#32
  | .scfgCallHi => 0x0000FFFF#32
  | .scfgChan => 0x0000FFFF#32
  | .scfgNoff => 0x0000000F#32
  | .snsValid => 0x0000003F#32
  | _ => 0xFFFFFFFF#32

/-! ### Interleavings -/

/-- `zs` is one of the orders in which the commands (or inputs) of two agents may take effect, each agent's in its own order
(20_memory.md R80, 30_encoding.md R101, R104). -/
inductive Interleaving {α : Type} : List α → List α → List α → Prop where
  | nil : Interleaving [] [] []
  | left (x : α) {xs ys zs : List α} : Interleaving xs ys zs → Interleaving (x :: xs) ys (x :: zs)
  | right (y : α) {xs ys zs : List α} : Interleaving xs ys zs → Interleaving xs (y :: ys) (y :: zs)

end Sys2Proof.Machine
end

