-- ==== Sys2Proof/Certificates/Slice0/Obligations.lean ====
section
/-! DEFINITION. The statements about the PBC that the provers are asked for, in the spec's order: reset and the invariant, the command
interface and the register window, the codec units, the scheduler, whole-machine rules. Registers are read through `readReg`, as the
host reads them. -/

open Sys2Proof Sys2Proof.Machine

/-! ### Reset and the invariant -/

/-- 70_reset_and_hazards.md R342: what every register reads after hardware reset, and that the PBC then does nothing until an input
comes. -/
def Obligations.ResetState : Prop :=
  (∀ r : Reg, readReg r State.reset =
    if r = .id then 0x50420001#32 else if r = .status then 0x00000400#32 else if r = .scfgTmin then 9#32
    else if r = .scfgNoff then 1#32 else 0#32) ∧
  State.reset.trace = [] ∧ step State.reset = .next State.reset

/-- After 70_reset_and_hazards.md R340: while `rst` is asserted no access and no event takes effect; when it is released every register,
the output levels and the trace are as after reset. That an input is then dropped, and that a read returns nothing while `rst` is
asserted, is the model's choice (log 4, DESIGN CHOICE, unsafe). -/
def Obligations.ResetInput : Prop :=
  (∀ s : State, s.inReset = false → ∃ t, deliver (.rst true) s = .next t ∧ t.inReset = true) ∧
  (∀ (s : State) (i : Input), s.inReset = true → (∀ b, i ≠ .rst b) → deliver i s = .next s) ∧
  (∀ s : State, s.inReset = true → ∃ t, deliver (.rst false) s = .next t ∧ t.inReset = false ∧ t.trace = [] ∧
    t.sched.rfOn = false ∧ t.sched.toneRun = false ∧ ∀ r : Reg, readReg r t = readReg r State.reset)

/-- The invariant `Inv` of Safety.lean holds at reset. -/
def Obligations.InvHoldsAtReset : Prop := Inv State.reset

/-- Every step keeps the invariant `Inv` of Safety.lean, whatever its input: the cursor's range (10_state.md R52), the levels as the
last events left them (43_scheduler.md R289), a valid configuration outside Init (R246, R249), OFF_INDEX below NOFF (R266), a base that
cannot wrap (R276), MSG_VALID (10_state.md R55), TXBUF the symbols of the message (R57, R60). -/
def Obligations.InvIsKeptByEveryStep : Prop := ∀ s t : State, Inv s → step s = .next t → Inv t

/-! ### Commands and their words -/

/-- A step delivers the next input, whatever it is, to the state without that input (20_memory.md R78, R80; log 1); so on a command
word at CMD it runs the command the word decodes to (30_encoding.md R90). A step with no input pending changes nothing (log 2). -/
def Obligations.StepRunsTheDecodedCommand : Prop :=
  (∀ (s : State) (i : Input) (rest : List Input), s.pending = i :: rest → step s = deliver i { s with pending := rest }) ∧
  (∀ (s : State) (w : Word) (i : Instr) (rest : List Input), s.inReset = false →
    s.pending = .write 0x004#12 4 w :: rest → decode w = .ok i → step s = exec i { s with pending := rest }) ∧
  (∀ s : State, s.pending = [] → step s = .next s) ∧
  (∀ (s : State) (w : Nat), w < 2 ^ 32 →
    s.withFetchWord 32 w = { s with pending := .write 0x004#12 4 (BitVec.ofNat 32 w) :: s.pending, inReset := false })

/-- A few command words of 30_encoding.md R91, as a sanity check of the decoder. -/
def Obligations.DecodedWords : Prop :=
  decode 0x00000000#32 = .ok .nop ∧ decode 0x00000001#32 = .ok .locate ∧ decode 0x00000002#32 = .ok .wsprEncode ∧
  decode 0x00000006#32 = .ok .u4bDecEng ∧ decode 0x00000010#32 = .ok .schedTick ∧
  decodeTableWord 32 0x0000001F = some .schedReset ∧ decodeTableWord 32 0x00000007 = none

/-- 30_encoding.md R90, R91: for every 32-bit word, the word selects a command exactly when it is that command's word, OPC in [7:0]
and zeros above; so decoding and encoding agree in both directions. -/
def Obligations.CommandMap : Prop :=
  (∀ (w : Word) (i : Instr), decode w = .ok i ↔ w = encode i) ∧
  encode .nop = 0x00#32 ∧ encode .locate = 0x01#32 ∧ encode .wsprEncode = 0x02#32 ∧ encode .u4bEncCall = 0x03#32 ∧
  encode .u4bEncEng = 0x04#32 ∧ encode .u4bDecCall = 0x05#32 ∧ encode .u4bDecEng = 0x06#32 ∧ encode .schedTick = 0x10#32 ∧
  encode .toneTick = 0x11#32 ∧ encode .ppsEdge = 0x12#32 ∧ encode .schedReset = 0x1F#32

/-- 30_encoding.md R92: every other word written to CMD raises IllegalCommand, which writes LAST_ERR and nothing else; and NOP is the
only command with no effect on any register other than STATUS. -/
def Obligations.IllegalCommandWords : Prop :=
  (∀ (s : State) (w : Word), s.inReset = false →
    (w.toNat / 256 ≠ 0 ∨ (0x07 ≤ w.toNat % 256 ∧ w.toNat % 256 ≤ 0x0F) ∨ (0x13 ≤ w.toNat % 256 ∧ w.toNat % 256 ≤ 0x1E) ∨
      0x20 ≤ w.toNat % 256) →
    deliver (.write 0x004#12 4 w) s = .next { s with lastErr := some .illegalCommand }) ∧
  (∀ i : Instr, i = .nop ↔ ∀ s t : State, exec i s = .next t → ∀ r : Reg, r ≠ .status → readReg r t = readReg r s)

/-- 30_encoding.md R101: an edge on a pin and a write of the same opcode to CMD have the same effect, and no edge is lost or merged. -/
def Obligations.PinEdgesAreCommands : Prop :=
  (∀ (s : State) (rest : List Input),
    step { s with pending := .ppsIn :: rest } = step { s with pending := .write 0x004#12 4 0x12#32 :: rest } ∧
    step { s with pending := .toneTickIn :: rest } = step { s with pending := .write 0x004#12 4 0x11#32 :: rest }) ∧
  (∀ (n : Nat) (s : State) (rest : List Input), s.inReset = false → s.pending = List.replicate n .ppsIn ++ rest →
    ∃ t : State, Host.Core.run Sys2Proof.core n s = .next t ∧ t.pending = rest ∧
      t.sched.ppsCount = s.sched.ppsCount + BitVec.ofNat 32 n)

/-! ### The register window -/

/-- The offsets and the access codes of every register (10_state.md R22 to R60). -/
def Obligations.RegisterMap : Prop :=
  (∀ r : Reg, r ∈ allRegs ∧ regAt (regOffset r) = some r) ∧
  allRegs.map (fun r => (regOffset r).toNat) =
    (List.range 3).map (fun k => 4 * k) ++ (List.range 28).map (fun k => 0x010 + 4 * k) ++
    (List.range 5).map (fun k => 0x080 + 4 * k) ++ (List.range 6).map (fun k => 0x0A0 + 4 * k) ++
    (List.range 6).map (fun k => 0x0C0 + 4 * k) ++ (List.range 11).map (fun k => 0x100 + 4 * k) ++
    (List.range 7).map (fun k => 0x200 + 4 * k) ++ (List.range 8).map (fun k => 0x220 + 4 * k) ++
    (List.range 7).map (fun k => 0x300 + 4 * k) ++ (List.range 7).map (fun k => 0x340 + 4 * k) ++
    (List.range 13).map (fun k => 0x400 + 4 * k) ++ (List.range 13).map (fun k => 0x440 + 4 * k) ++
    (List.range 11).map (fun k => 0x500 + 4 * k) ∧
  (∀ r : Reg, (regAccess r = .wo ↔ (regOffset r).toNat = 0x004) ∧ (regAccess r = .w1c ↔ (regOffset r).toNat = 0x008) ∧
    (regAccess r = .locked ↔ 0x200 ≤ (regOffset r).toNat ∧ (regOffset r).toNat < 0x300) ∧
    (regAccess r = .rw ↔ (0x010 ≤ (regOffset r).toNat ∧ (regOffset r).toNat ≤ 0x024) ∨
      (0x030 ≤ (regOffset r).toNat ∧ (regOffset r).toNat ≤ 0x058) ∨
      (0x300 ≤ (regOffset r).toNat ∧ (regOffset r).toNat < 0x400)))

/-- 20_memory.md R72, R73, R74: a misaligned access, an access not 4 bytes wide, an access to an offset with no register, a write to an
RO register and a write to an SCFG register outside Init set ACCESS_ERR and change nothing else; such a read returns 0. -/
def Obligations.BadAccessesSetAccessErr : Prop :=
  (∀ (s : State) (off : Offset) (width : Nat) (v : Word), s.inReset = false →
    (off.toNat % 4 ≠ 0 ∨ width ≠ 4 ∨ ∀ r : Reg, regOffset r ≠ off) →
    deliver (.read off width) s = .next { s with accessErr := true, reads := s.reads ++ [0#32] } ∧
    deliver (.write off width v) s = .next { s with accessErr := true }) ∧
  (∀ (s : State) (r : Reg) (v : Word), s.inReset = false →
    (regAccess r = .ro ∨ regAccess r = .locked ∧ s.sched.state ≠ .init) →
    deliver (.write (regOffset r) 4 v) s = .next { s with accessErr := true })

/-- A well-formed read returns the register's value and changes nothing (20_memory.md R71, R79); a well-formed write to an RW register,
or to an SCFG register in Init, stores the bits of the register's field, ignores the reserved bits without an error, and changes no
other register, no error field but the live CFG_ERR, and emits nothing (10_state.md R20). -/
def Obligations.ReadsAndWrites : Prop :=
  (∀ (s : State) (r : Reg), s.inReset = false →
    deliver (.read (regOffset r) 4) s = .next { s with reads := s.reads ++ [readReg r s] }) ∧
  (∀ (s : State) (r : Reg) (v : Word), s.inReset = false →
    (regAccess r = .rw ∨ regAccess r = .locked ∧ s.sched.state = .init) →
    ∃ t, deliver (.write (regOffset r) 4 v) s = .next t ∧ readReg r t = v &&& fieldMask r ∧ readsSameBut [r] s t ∧
      t.lastErr = s.lastErr ∧ t.accessErr = s.accessErr ∧ t.schedErr = s.schedErr ∧ t.schedErrCode = s.schedErrCode ∧
      (regAccess r = .rw → cfgErr t = cfgErr s) ∧ t.trace = s.trace ∧ interfaceSame s t)

/-- 43_scheduler.md R246: the SCFG registers accept writes only in Init; outside Init a write is an access error that changes nothing,
and no step but one that takes a hardware reset changes the configuration. -/
def Obligations.ConfigurationLock : Prop :=
  (∀ (s : State) (r : Reg) (v : Word), s.inReset = false → regAccess r = .locked →
    (s.sched.state = .init → ∃ t, deliver (.write (regOffset r) 4 v) s = .next t ∧ readReg r t = v &&& fieldMask r) ∧
    (s.sched.state ≠ .init → deliver (.write (regOffset r) 4 v) s = .next { s with accessErr := true })) ∧
  (∀ s t : State, s.sched.state ≠ .init → (∀ b rest, s.pending ≠ .rst b :: rest) → step s = .next t → t.scfg = s.scfg)

/-- The fields of STATUS and the effect of a write to it (10_state.md R24). -/
def Obligations.StatusRegister : Prop :=
  (∀ s : State, (readReg .status s).extractLsb' 0 8 = statusCode s.lastErr ∧
    (readReg .status s).getLsbD 8 = s.accessErr ∧ (readReg .status s).getLsbD 9 = s.schedErr ∧
    (readReg .status s).getLsbD 10 = !cfgValid s.scfg ∧ (readReg .status s).extractLsb' 11 5 = 0#5 ∧
    (readReg .status s).extractLsb' 16 8 = statusCode s.schedErrCode ∧ (readReg .status s).extractLsb' 24 8 = 0#8) ∧
  (∀ (s : State) (v : Word), s.inReset = false → deliver (.write 0x008#12 4 v) s =
    .next { s with accessErr := s.accessErr && !v.getLsbD 8, schedErr := s.schedErr && !v.getLsbD 9 })

/-- 70_reset_and_hazards.md R351: ACCESS_ERR and SCHED_ERR stay 1 until the host writes 1 to them; no other access, command or event
clears them. -/
def Obligations.StickyStatusBits : Prop :=
  ∀ (s t : State) (i : Input) (rest : List Input), s.pending = i :: rest → (∀ b, i ≠ .rst b) → step s = .next t →
    (s.accessErr = true → (∀ v, i = .write 0x008#12 4 v → v.getLsbD 8 = false) → t.accessErr = true) ∧
    (s.schedErr = true → (∀ v, i = .write 0x008#12 4 v → v.getLsbD 9 = false) → t.schedErr = true)

/-- The error codes (60_exceptions.md R310), the scheduler state codes (30_encoding.md R98) and the bits of SCHED_FLAGS
(10_state.md R55). -/
def Obligations.CodesAndFlags : Prop :=
  [statusCode none, errCode .invalidCallsign, errCode .invalidPower, errCode .invalidChannel, errCode .invalidGrid,
    errCode .altitudeOutOfRange, errCode .coordOutOfRange, errCode .illegalCommand, errCode .configInvalid] =
    (List.range 9).map (BitVec.ofNat 8) ∧
  [stateCode .init, stateCode .waitForTime, stateCode .waitForFix, stateCode .collectTelemetry, stateCode .waitForTransmit,
    stateCode .awaitPps, stateCode .transmitting] = (List.range 7).map (BitVec.ofNat 3) ∧
  (∀ s : State, readReg .schedState s = (stateCode s.sched.state).setWidth 32 ∧
    (readReg .schedFlags s).getLsbD 0 = s.sched.radioCfgd ∧ (readReg .schedFlags s).getLsbD 1 = s.sched.rfOn ∧
    (readReg .schedFlags s).getLsbD 2 = s.sched.toneRun ∧ (readReg .schedFlags s).getLsbD 3 = s.sched.msgTelem ∧
    (readReg .schedFlags s).getLsbD 4 = s.sched.msgValid ∧ (readReg .schedFlags s).extractLsb' 5 27 = 0#27)

/-- 60_exceptions.md R311: what a command leaves in LAST_ERR (and everywhere else) does not depend on what LAST_ERR held, so LAST_ERR
describes the most recent command; an access that is not a write to CMD does not change it. -/
def Obligations.LastErrIsTheLastCommands : Prop :=
  (∀ (i : Instr) (s : State) (x : Option Err), exec i { s with lastErr := x } = exec i s) ∧
  (∀ (i : Input) (s t : State), (∀ v, i ≠ .write 0x004#12 4 v) → i ≠ .ppsIn → i ≠ .toneTickIn → (∀ b, i ≠ .rst b) →
    deliver i s = .next t → t.lastErr = s.lastErr)

/-- 60_exceptions.md R312: a command that raises an error changes nothing but LAST_ERR and, for SCHED_TICK, PPS_LAST and, on a failed
build, SCHED_ERR and SCHED_ERR_CODE; in particular it emits no event. -/
def Obligations.ErrorsAbortAtomically : Prop :=
  (∀ (i : Instr) (s t : State) (e : Err), exec i s = .next t → t.lastErr = some e →
    (i ≠ .schedTick → t = { s with lastErr := some e }) ∧
    (i = .schedTick →
      (s.sched.state = .init ∧
        t = { s with lastErr := some e, sched := { s.sched with ppsLast := s.sched.ppsCount } }) ∨
      (s.sched.state = .collectTelemetry ∧
        t = { s with lastErr := some e, schedErr := true, schedErrCode := some e,
                     sched := { s.sched with ppsLast := s.sched.ppsCount } }))) ∧
  (∀ (s : State) (w : Word) (d : DecodeError), s.inReset = false → decode w = .error d →
    deliver (.write 0x004#12 4 w) s = .next { s with lastErr := some .illegalCommand })

/-- Every run of every length goes on: no step ends in a fault or a refusal. That is the model's reading of 60_exceptions.md R318, "There
is no category of error that aborts the overall process from within the core" (log 7, DEDUCED, safe). -/
def Obligations.NothingStopsTheMachine : Prop :=
  ∀ (n : Nat) (s : State), ∃ t : State, Host.Core.run Sys2Proof.core n s = .next t

/-- The registers each command may change are those of 30_encoding.md R100; only the commands of SCHED emit events, and events are only
appended (43_scheduler.md R289). -/
def Obligations.CommandFrames : Prop :=
  ∀ (i : Instr) (s t : State), exec i s = .next t →
    readsSameBut (resultRegs i) s t ∧ interfaceSame s t ∧ t.accessErr = s.accessErr ∧ cfgErr t = cfgErr s ∧
    (i ≠ .schedTick → statusSameButLastErr s t) ∧
    (i ≠ .schedTick → i ≠ .toneTick → i ≠ .schedReset → t.trace = s.trace) ∧
    ∃ events, t.trace = s.trace ++ events

/-- The words of FECBUF, ILVBUF, SYMBUF and TXBUF: FEC bit k is bit k mod 32 of word k // 32, symbol k is bits 2(k mod 16)+1 and
2(k mod 16) of word k // 16, and the reserved bits read 0 (10_state.md R39, R40, R41, R60). -/
def Obligations.BufferLayout : Prop :=
  ∀ s : State,
    (∀ k : Nat, k < 162 →
      (readReg (.fecbuf (Fin.ofNat 6 (k / 32))) s).getLsbD (k % 32) = s.wenc.fec.getLsbD k ∧
      (readReg (.ilvbuf (Fin.ofNat 6 (k / 32))) s).getLsbD (k % 32) = s.wenc.ilv.getLsbD k ∧
      (readReg (.symbuf (Fin.ofNat 11 (k / 16))) s).extractLsb' (2 * (k % 16)) 2 = symbolAt s.wenc.sym k ∧
      (readReg (.txbuf (Fin.ofNat 11 (k / 16))) s).extractLsb' (2 * (k % 16)) 2 = symbolAt s.txbuf k) ∧
    (readReg (.fecbuf 5) s).toNat < 4 ∧ (readReg (.ilvbuf 5) s).toNat < 4 ∧ (readReg (.symbuf 10) s).toNat < 16 ∧
    (readReg (.txbuf 10) s).toNat < 16

/-- Strings in registers: the byte lanes of 20_memory.md R75, with its example, and the NUL-terminated reading of 30_encoding.md R94. -/
def Obligations.StringsInRegisters : Prop :=
  (∀ c : Str6, str6Of (strLo c) (strHi c) = c) ∧
  (∀ (lo : Word) (hi : BitVec 16) (i : Nat), i < 6 → (strChars (str6Of lo hi))[i]? =
    some (if i < 4 then lo.extractLsb' (8 * (i % 4)) 8 else hi.extractLsb' (8 * (i % 4)) 8)) ∧
  strLo ⟨chr 'W', chr '6', chr 'N', chr 'X', 0#8, 0#8⟩ = 0x584E3657#32 ∧
  (∀ (lo : Word) (hi : BitVec 16), ∃ ignored, strChars (str6Of lo hi) = nulTerminated lo hi ++ ignored ∧
    (∀ b ∈ nulTerminated lo hi, b ≠ 0#8) ∧ (ignored = [] ∨ ignored.head? = some 0#8))

/-! ### LOCATE -/

/-- 40_locator.md R121 to R126: LOCATE on every LAT and LON. -/
def Obligations.LocateResult : Prop :=
  ∀ s : State,
    let lat := (readReg .lat s).toInt
    let lon := (readReg .lon s).toInt
    let x := min (lon + 180000000) 359999999
    let y := min (lat + 90000000) 179999999
    ((-90000000 ≤ lat ∧ lat ≤ 90000000 ∧ -180000000 ≤ lon ∧ lon ≤ 180000000) →
      ∃ t, exec .locate s = .next t ∧ t.lastErr = none ∧ t.trace = s.trace ∧ CommandFrame [.locLo, .locHi] s t ∧
        ((lane (readReg .locLo t) 0).toNat : Int) = 65 + x / 20000000 ∧
        ((lane (readReg .locLo t) 1).toNat : Int) = 65 + y / 10000000 ∧
        ((lane (readReg .locLo t) 2).toNat : Int) = 48 + x % 20000000 / 2000000 ∧
        ((lane (readReg .locLo t) 3).toNat : Int) = 48 + y % 10000000 / 1000000 ∧
        ((lane (readReg .locHi t) 0).toNat : Int) = 97 + x % 2000000 * 12 / 1000000 ∧
        ((lane (readReg .locHi t) 1).toNat : Int) = 97 + y % 1000000 * 24 / 1000000 ∧
        (readReg .locHi t).toNat < 65536) ∧
    (¬(-90000000 ≤ lat ∧ lat ≤ 90000000 ∧ -180000000 ≤ lon ∧ lon ≤ 180000000) →
      exec .locate s = .next { s with lastErr := some .coordOutOfRange })

/-- 40_locator.md R127: a LOCATE that succeeds leaves a locator of the pattern `[A-R][A-R][0-9][0-9][a-x][a-x]`, which depends on LAT
and LON alone. -/
def Obligations.LocatorPattern : Prop :=
  (∀ s t : State, exec .locate s = .next t → t.lastErr = none →
    (0x41 ≤ (lane (readReg .locLo t) 0).toNat ∧ (lane (readReg .locLo t) 0).toNat ≤ 0x52) ∧
    (0x41 ≤ (lane (readReg .locLo t) 1).toNat ∧ (lane (readReg .locLo t) 1).toNat ≤ 0x52) ∧
    (0x30 ≤ (lane (readReg .locLo t) 2).toNat ∧ (lane (readReg .locLo t) 2).toNat ≤ 0x39) ∧
    (0x30 ≤ (lane (readReg .locLo t) 3).toNat ∧ (lane (readReg .locLo t) 3).toNat ≤ 0x39) ∧
    (0x61 ≤ (lane (readReg .locHi t) 0).toNat ∧ (lane (readReg .locHi t) 0).toNat ≤ 0x78) ∧
    (0x61 ≤ (lane (readReg .locHi t) 1).toNat ∧ (lane (readReg .locHi t) 1).toNat ≤ 0x78)) ∧
  (∀ s s' t t' : State, readReg .lat s = readReg .lat s' → readReg .lon s = readReg .lon s' →
    exec .locate s = .next t → exec .locate s' = .next t' → t.lastErr = none →
    t'.lastErr = none ∧ readReg .locLo t = readReg .locLo t' ∧ readReg .locHi t = readReg .locHi t')

/-! ### WSPR_ENCODE -/

/-- 41_wspr_encoder.md R142, R143: which original callsigns normalise, and to what; every other one is InvalidCallsign. -/
def Obligations.CallsignNormalisation : Prop :=
  ∀ orig : List Byte,
    (∀ n : Str6, normalise orig = .ok n ↔ ∃ k : Nat,
      ((k = 0 ∧ ∃ c, orig[2]? = some c ∧ isDigit c = true) ∨
        (k = 1 ∧ (¬ ∃ c, orig[2]? = some c ∧ isDigit c = true) ∧ ∃ c, orig[1]? = some c ∧ isDigit c = true)) ∧
      k + orig.length ≤ 6 ∧
      strChars n = List.replicate k 0x20#8 ++ orig ++ List.replicate (6 - (k + orig.length)) 0x20#8 ∧
      (isDigit n.c0 = true ∨ isUpper n.c0 = true ∨ n.c0 = 0x20#8) ∧ (isDigit n.c1 = true ∨ isUpper n.c1 = true) ∧
      isDigit n.c2 = true ∧ (isUpper n.c3 = true ∨ n.c3 = 0x20#8) ∧ (isUpper n.c4 = true ∨ n.c4 = 0x20#8) ∧
      (isUpper n.c5 = true ∨ n.c5 = 0x20#8)) ∧
    ∀ e, normalise orig = .error e → e = .invalidCallsign

/-- WSPR_ENCODE on every operand: callsign, then grid, then power are checked, an error writes LAST_ERR alone, and on legal operands
exactly the WENC result registers are written (41_wspr_encoder.md R140, R146, R148, R162; 60_exceptions.md R313). -/
def Obligations.WsprEncodeCommand : Prop :=
  ∀ s : State,
    let gridOk := (0x41 ≤ (lane s.codec.grid 0).toNat ∧ (lane s.codec.grid 0).toNat ≤ 0x52) ∧
      (0x41 ≤ (lane s.codec.grid 1).toNat ∧ (lane s.codec.grid 1).toNat ≤ 0x52) ∧
      (0x30 ≤ (lane s.codec.grid 2).toNat ∧ (lane s.codec.grid 2).toNat ≤ 0x39) ∧
      (0x30 ≤ (lane s.codec.grid 3).toNat ∧ (lane s.codec.grid 3).toNat ≤ 0x39)
    let powerOk := s.codec.power.toNat ∈ [0, 3, 7, 10, 13, 17, 20, 23, 27, 30, 33, 37, 40, 43, 47, 50, 53, 57, 60]
    ((∀ n, normalise (nulTerminated s.codec.callLo s.codec.callHi) ≠ .ok n) →
      exec .wsprEncode s = .next { s with lastErr := some .invalidCallsign }) ∧
    (∀ n, normalise (nulTerminated s.codec.callLo s.codec.callHi) = .ok n →
      (¬gridOk → exec .wsprEncode s = .next { s with lastErr := some .invalidGrid }) ∧
      (gridOk → ¬powerOk → exec .wsprEncode s = .next { s with lastErr := some .invalidPower }) ∧
      (gridOk → powerOk → ∃ w, exec .wsprEncode s = .next { s with lastErr := none, wenc := w } ∧
        w.normLo = strLo n ∧ w.normHi = strHi n ∧
        wsprEncode s.codec.callLo s.codec.callHi s.codec.grid s.codec.power = .ok w))

/-- 41_wspr_encoder.md R144, R145, R147, R149: N, G and M of an encoded message, whole, with their ranges, so that no packed register
loses a bit. -/
def Obligations.PackedFields : Prop :=
  ∀ (lo : Word) (hi : BitVec 16) (grid : Word) (power : Byte) (w : WencRegs), wsprEncode lo hi grid power = .ok w →
    let v : Byte → Int := fun c =>
      if 0x30 ≤ c.toNat ∧ c.toNat ≤ 0x39 then (c.toNat : Int) - 0x30
      else if 0x41 ≤ c.toNat ∧ c.toNat ≤ 0x5A then (c.toNat : Int) - 0x41 + 10 else 36
    let g : Nat → Int := fun i => ((lane grid i).toNat : Int)
    (w.packN.toNat : Int) =
      ((((v (lane w.normLo 0) * 36 + v (lane w.normLo 1)) * 10 + v (lane w.normLo 2)) * 27 + (v (lane w.normLo 3) - 10)) * 27 +
        (v (lane w.normHi 0) - 10)) * 27 + (v (lane w.normHi 1) - 10) ∧
    w.packN.toNat ≤ 262177559 ∧
    (w.packGrid.toNat : Int) = (179 - 10 * (g 0 - 0x41) - (g 2 - 0x30)) * 180 + 10 * (g 1 - 0x41) + (g 3 - 0x30) ∧
    w.packGrid.toNat ≤ 32399 ∧
    w.packM.toNat = w.packGrid.toNat * 128 + power.toNat + 64 ∧ 64 ≤ w.packM.toNat ∧ w.packM.toNat ≤ 4147196

/-- 41_wspr_encoder.md R150, R151, R152: the 11-byte buffer and the 81 input bits of the FEC, for every 28-bit N and 22-bit M. -/
def Obligations.PayloadBitStream : Prop :=
  ∀ n m : Nat, n < 2 ^ 28 → m < 2 ^ 22 →
    (payload n m).toNat = (n * 2 ^ 22 + m) * 2 ^ 6 ∧
    (payloadBytes (payload n m)).length = 11 ∧
    (∀ b : Nat, b < 11 → (payloadBytes (payload n m))[b]? =
      some (if b < 7 then BitVec.ofNat 8 ((payload n m).toNat / 2 ^ (8 * (6 - b))) else 0#8)) ∧
    (inputBits (payloadBytes (payload n m))).length = 81 ∧
    (∀ k : Nat, k < 81 → (inputBits (payloadBytes (payload n m)))[k]? =
      some (decide (k < 50) && (n * 2 ^ 22 + m).testBit (49 - k)))

/-- 41_wspr_encoder.md R154: parity is 1 exactly on words with an odd number of 1 bits. -/
def Obligations.ParityCountsOnes : Prop :=
  ∀ x : Word, parity x = decide ((List.range 32).countP (fun i => x.getLsbD i) % 2 = 1)

/-- The convolutional code as sums over its taps: FEC bit 2k is the parity of the input bits at the taps of POLY0, FEC bit 2k+1 at those
of POLY1, and the first two FEC bits equal the first input bit (41_wspr_encoder.md R153, R155, R156). -/
def Obligations.ConvolutionTaps : Prop :=
  ∀ input : List Bool,
    (fecEncode input).length = 2 * input.length ∧
    (∀ k : Nat, k < input.length →
      (fecEncode input)[2 * k]? = some (decide
        ((List.range 32).countP (fun j => (0xF2D05351#32).getLsbD j && decide (j ≤ k) && input.getD (k - j) false) % 2 = 1)) ∧
      (fecEncode input)[2 * k + 1]? = some (decide
        ((List.range 32).countP (fun j => (0xE4613C47#32).getLsbD j && decide (j ≤ k) && input.getD (k - j) false) % 2 = 1))) ∧
    (∀ b rest, input = b :: rest → (fecEncode input)[0]? = some b ∧ (fecEncode input)[1]? = some b)

/-- 41_wspr_encoder.md R157, R158, R159: rev8 reverses 8 bits; FEC bit i goes to the slot of the i-th counter value whose reversal is
below 162; every one of the 162 slots is filled, the last at j = 254, whatever the data. -/
def Obligations.InterleaverPlacement : Prop :=
  (∀ j : Nat, j < 256 → rev8 j < 256 ∧ ∀ b : Nat, b < 8 → (rev8 j).testBit (7 - b) = j.testBit b) ∧
  (∀ (fec : BitVec 162) (j : Nat), j < 255 → rev8 j < 162 →
    (interleave fec).getLsbD (rev8 j) = fec.getLsbD ((List.range j).countP (fun i => decide (rev8 i < 162)))) ∧
  (∀ r : Nat, r < 162 → ∃ j : Nat, j < 255 ∧ rev8 j = r ∧ ∀ i : Nat, i < 256 → rev8 i = r → i = j) ∧
  (List.range 255).countP (fun i => decide (rev8 i < 162)) = 162 ∧
  (List.range 254).countP (fun i => decide (rev8 i < 162)) = 161 ∧ rev8 254 = 127 ∧ rev8 255 = 255

/-- 41_wspr_encoder.md R160, R161: symbol k is SYNC[k] + 2 ilv[k], and SYNC is the literal table of R161, with 63 ones (the spec marks
that table as general knowledge; log 5). -/
def Obligations.SymbolsAndSync : Prop :=
  (∀ (ilv : BitVec 162) (k : Nat), k < 162 →
    (symbolAt (mergeSync ilv) k).toNat = (syncBit k).toNat + 2 * (ilv.getLsbD k).toNat ∧
    (symbolAt (mergeSync ilv) k).toNat % 2 = (syncBit k).toNat) ∧
  syncTable.length = 162 ∧ syncTable.countP (fun b => b == 1#1) = 63 ∧
  syncTable.map (fun b => if b = 1#1 then '1' else '0') =
    "110000001000111000100101111000000010010100000010110011010001101000011010101010010010110001101010001000001001001110110011010001110000010100110000000110101100011000".toList

/-- The whole encoder: after a WSPR_ENCODE without error, FEC bit i is the parity of the 50 payload bits, N then M, at the taps of
POLY0 (i even) or POLY1 (i odd); the slot of the i-th usable counter value j holds FEC bit i in ILVBUF; symbol k is SYNC[k] plus twice
interleaved bit k; so the symbol of a slot follows from the payload alone (41_wspr_encoder.md R150 to R162; the SYNC table is log 5).
Where the bits and symbols stand in the words of FECBUF, ILVBUF and SYMBUF is `Obligations.BufferLayout`. -/
def Obligations.TransmittedSymbols : Prop :=
  ∀ s t : State, exec .wsprEncode s = .next t → t.lastErr = none →
    let p := t.wenc.packN.toNat * 2 ^ 22 + t.wenc.packM.toNat
    let bit : Nat → Bool := fun k => decide (k < 50) && p.testBit (49 - k)
    let poly : Nat → Word := fun i => if i % 2 = 0 then 0xF2D05351#32 else 0xE4613C47#32
    let tap : Nat → Nat := fun i =>
      (List.range 32).countP (fun b => (poly i).getLsbD b && decide (b ≤ i / 2) && bit (i / 2 - b)) % 2
    let index : Nat → Nat := fun j => (List.range j).countP (fun i => decide (rev8 i < 162))
    (∀ i : Nat, i < 162 → (t.wenc.fec.getLsbD i).toNat = tap i) ∧
    (∀ j : Nat, j < 255 → rev8 j < 162 → t.wenc.ilv.getLsbD (rev8 j) = t.wenc.fec.getLsbD (index j)) ∧
    (∀ k : Nat, k < 162 → (symbolAt t.wenc.sym k).toNat = (syncBit k).toNat + 2 * (t.wenc.ilv.getLsbD k).toNat) ∧
    (∀ j : Nat, j < 255 → rev8 j < 162 →
      (symbolAt t.wenc.sym (rev8 j)).toNat = (syncBit (rev8 j)).toNat + 2 * tap (index j))

/-! ### The U4B codec -/

/-- 42_u4b_codec.md R190 to R197: U4B_ENC_CALL on every operand. -/
def Obligations.U4bEncodeCall : Prop :=
  ∀ s : State,
    let h0 := lane (readReg .chan s) 0
    let h1 := lane (readReg .chan s) 1
    let q0 := (lane (readReg .subsq s) 0).toNat
    let q1 := (lane (readReg .subsq s) 1).toNat
    let alt := (readReg .alt s).toInt
    let channelOk := (h0 = chr 'Q' ∨ h0 = chr '0') ∧ 0x30 ≤ h1.toNat ∧ h1.toNat ≤ 0x39
    let subsqOk := 0x61 ≤ q0 ∧ q0 ≤ 0x78 ∧ 0x61 ≤ q1 ∧ q1 ≤ 0x78
    let altOk := 0 ≤ alt ∧ alt ≤ 21359
    let tele := ((q0 - 0x61) * 24 + (q1 - 0x61)) * 1068 + alt.toNat / 20
    (channelOk → subsqOk → altOk →
      ∃ t, exec .u4bEncCall s = .next t ∧ t.lastErr = none ∧ t.trace = s.trace ∧
        CommandFrame [.ucallLo, .ucallHi, .ucallInt] s t ∧ (readReg .ucallInt t).toNat = tele ∧ tele ≤ 615167 ∧
        lane (readReg .ucallLo t) 0 = h0 ∧ lane (readReg .ucallLo t) 2 = h1 ∧
        (lane (readReg .ucallLo t) 1).toNat =
          (if tele / 17576 < 10 then 0x30 + tele / 17576 else 0x41 + (tele / 17576 - 10)) ∧
        (lane (readReg .ucallLo t) 3).toNat = 0x41 + tele % 17576 / 676 ∧
        (lane (readReg .ucallHi t) 0).toNat = 0x41 + tele % 17576 % 676 / 26 ∧
        (lane (readReg .ucallHi t) 1).toNat = 0x41 + tele % 17576 % 26 ∧ (readReg .ucallHi t).toNat < 65536) ∧
    (¬channelOk → exec .u4bEncCall s = .next { s with lastErr := some .invalidChannel }) ∧
    (channelOk → ¬subsqOk → exec .u4bEncCall s = .next { s with lastErr := some .invalidGrid }) ∧
    (channelOk → subsqOk → ¬altOk → exec .u4bEncCall s = .next { s with lastErr := some .altitudeOutOfRange })

/-- 42_u4b_codec.md R198 to R207: U4B_ENC_ENG on every operand; it has no error. The rounding is the PBC's half up (log 6). -/
def Obligations.U4bEncodeEngineering : Prop :=
  ∀ s : State,
    let temp := (readReg .temp s).toInt
    let mv := (readReg .volt s).toNat
    let spd := (readReg .speed s).toNat
    let tq := ((if temp < -50 then -50 else if 39 < temp then 39 else temp) + 50).toNat
    let vq := ((if mv < 3000 then 3000 else if 4950 < mv then 4950 else mv) - 3000 + 25) / 50
    let sq := (if 82 < spd then 82 else spd) / 2
    let tele := ((readReg .flags s).getLsbD 0).toNat + 2 * (((readReg .flags s).getLsbD 1).toNat + 2 * (sq + 42 * (vq + 40 * tq)))
    ∃ t, exec .u4bEncEng s = .next t ∧ t.lastErr = none ∧ t.trace = s.trace ∧
      CommandFrame [.ugrid, .upower, .uengInt] s t ∧ (readReg .uengInt t).toNat = tele ∧ tele ≤ 604799 ∧
      [0, 3, 7, 10, 13, 17, 20, 23, 27, 30, 33, 37, 40, 43, 47, 50, 53, 37, 60][tele % 19]? = some (readReg .upower t).toNat ∧
      (lane (readReg .ugrid t) 0).toNat = 0x41 + tele / 19 / 1800 ∧
      (lane (readReg .ugrid t) 1).toNat = 0x41 + tele / 19 / 100 % 18 ∧
      (lane (readReg .ugrid t) 2).toNat = 0x30 + tele / 19 / 10 % 10 ∧
      (lane (readReg .ugrid t) 3).toNat = 0x30 + tele / 19 % 10

/-- 42_u4b_codec.md R216 to R221: U4B_DEC_CALL on every operand. -/
def Obligations.U4bDecodeCall : Prop :=
  ∀ s : State,
    let c0 := lane (readReg .ucallLo s) 0
    let c1 := (lane (readReg .ucallLo s) 1).toNat
    let c2 := lane (readReg .ucallLo s) 2
    let c3 := (lane (readReg .ucallLo s) 3).toNat
    let c4 := (lane (readReg .ucallHi s) 0).toNat
    let c5 := (lane (readReg .ucallHi s) 1).toNat
    let channelOk := (c0 = chr 'Q' ∨ c0 = chr '0') ∧ 0x30 ≤ c2.toNat ∧ c2.toNat ≤ 0x39
    let valuesOk := ((0x30 ≤ c1 ∧ c1 ≤ 0x39) ∨ (0x41 ≤ c1 ∧ c1 ≤ 0x5A)) ∧ (0x41 ≤ c3 ∧ c3 ≤ 0x5A) ∧
      (0x41 ≤ c4 ∧ c4 ≤ 0x5A) ∧ (0x41 ≤ c5 ∧ c5 ≤ 0x5A)
    let tele := (if c1 ≤ 0x39 then c1 - 0x30 else c1 - 0x41 + 10) * 17576 + (c3 - 0x41) * 676 + (c4 - 0x41) * 26 + (c5 - 0x41)
    (channelOk → valuesOk → tele / 1068 / 24 ≤ 23 →
      ∃ t, exec .u4bDecCall s = .next t ∧ t.lastErr = none ∧ t.trace = s.trace ∧
        CommandFrame [.dchan, .dsubsq, .dalt, .ucallInt] s t ∧ (readReg .ucallInt t).toNat = tele ∧
        (readReg .dalt t).toNat = tele % 1068 * 20 ∧
        (readReg .dchan t).toNat = c0.toNat + 256 * c2.toNat ∧
        (readReg .dsubsq t).toNat = 0x61 + tele / 1068 / 24 + 256 * (0x61 + tele / 1068 % 24)) ∧
    (¬channelOk → exec .u4bDecCall s = .next { s with lastErr := some .invalidChannel }) ∧
    (channelOk → ¬valuesOk → exec .u4bDecCall s = .next { s with lastErr := some .invalidCallsign }) ∧
    (channelOk → valuesOk → 23 < tele / 1068 / 24 → exec .u4bDecCall s = .next { s with lastErr := some .invalidGrid })

/-- 42_u4b_codec.md R210 to R215: U4B_DEC_ENG on every operand. -/
def Obligations.U4bDecodeEngineering : Prop :=
  ∀ s : State,
    let g : Nat → Nat := fun i => (lane (readReg .ugrid s) i).toNat
    let power := (readReg .upower s).toNat
    let lut := [0, 3, 7, 10, 13, 17, 20, 23, 27, 30, 33, 37, 40, 43, 47, 50, 53, 37, 60]
    let gridOk := (0x41 ≤ g 0 ∧ g 0 ≤ 0x52) ∧ (0x41 ≤ g 1 ∧ g 1 ≤ 0x52) ∧ (0x30 ≤ g 2 ∧ g 2 ≤ 0x39) ∧ (0x30 ≤ g 3 ∧ g 3 ≤ 0x39)
    let gi := (g 0 - 0x41) * 1800 + (g 1 - 0x41) * 100 + (g 2 - 0x30) * 10 + (g 3 - 0x30)
    (∀ idx : Nat, gridOk → lut[idx]? = some power → (∀ j, j < idx → lut[j]? ≠ some power) →
      ∃ t, exec .u4bDecEng s = .next t ∧ t.lastErr = none ∧ t.trace = s.trace ∧
        CommandFrame [.dtemp, .dvolt, .dspeed, .dflags, .uengInt] s t ∧
        (readReg .uengInt t).toNat = gi * 19 + idx ∧
        (readReg .dtemp t).toInt = ((gi * 19 + idx) / 6720 : Nat) - 50 ∧
        (readReg .dvolt t).toNat = 3000 + 50 * ((gi * 19 + idx) / 168 % 40) ∧
        (readReg .dspeed t).toNat = 2 * ((gi * 19 + idx) / 4 % 42) ∧
        (readReg .dflags t).toNat = (gi * 19 + idx) / 2 % 2 * 2 + (gi * 19 + idx) % 2) ∧
    (¬gridOk → exec .u4bDecEng s = .next { s with lastErr := some .invalidGrid }) ∧
    (gridOk → power ∉ lut → exec .u4bDecEng s = .next { s with lastErr := some .invalidPower })

/-- The U4B round trip of 42_u4b_codec.md R225: for every accepted channel, subsquare and altitude, U4B_DEC_CALL after U4B_ENC_CALL
returns the same channel and subsquare, and the altitude rounded down to 20 m. -/
def Obligations.CallRoundTrip : Prop :=
  ∀ s t : State, exec .u4bEncCall s = .next t → t.lastErr = none →
    ∃ u, exec .u4bDecCall t = .next u ∧ u.lastErr = none ∧ readReg .dchan u = readReg .chan s ∧
      readReg .dsubsq u = readReg .subsq s ∧ (readReg .dalt u).toInt = 20 * ((readReg .alt s).toInt / 20) ∧
      readReg .ucallInt u = readReg .ucallInt t

/-- The engineering round trip of 42_u4b_codec.md R225: U4B_DEC_ENG after U4B_ENC_ENG returns the clamped and quantised values exactly
when `t mod 19` is not 17; when it is 17, the decoded t is `t - 6` (90_conflicts.md C1). The rounding is half up (log 6). -/
def Obligations.EngineeringRoundTrip : Prop :=
  ∀ s t : State, exec .u4bEncEng s = .next t →
    let temp := (readReg .temp s).toInt
    let mv := (readReg .volt s).toNat
    let spd := (readReg .speed s).toNat
    let tele := (readReg .uengInt t).toNat
    ∃ u, exec .u4bDecEng t = .next u ∧ u.lastErr = none ∧
      (tele % 19 = 17 → (readReg .uengInt u).toNat = tele - 6) ∧
      (tele % 19 ≠ 17 → (readReg .uengInt u).toNat = tele ∧
        (readReg .dtemp u).toInt = max (-50) (min temp 39) ∧
        (readReg .dvolt u).toNat = 3000 + 50 * ((max 3000 (min mv 4950) - 2975) / 50) ∧
        (readReg .dspeed u).toNat = min spd 82 / 2 * 2 ∧ readReg .dflags u = readReg .flags s)

/-- A telemetry frame always encodes: the pseudo-callsign of any accepted channel, subsquare and altitude normalises to itself, and the
grid and power of any engineering values are legal (42_u4b_codec.md R196, R205, R206). -/
def Obligations.TelemetryFramesEncode : Prop :=
  ∀ (ch sq : BitVec 16) (alt temp volt speed : Word) (orient health : Bool) (f : CallFrame), encCall ch sq alt = .ok f →
    normalise (nulTerminated (strLo f.call) (strHi f.call)) = .ok f.call ∧
    ∃ w, wsprEncode (strLo f.call) (strHi f.call) (encEng temp volt speed orient health).grid
      (encEng temp volt speed orient health).power = .ok w

/-! ### SCHED_TICK -/

/-- The five checks of 43_scheduler.md R247 behind STATUS.CFG_ERR. -/
def Obligations.ConfigurationValidity : Prop :=
  ∀ s : State,
    let ch0 := lane (readReg .scfgChan s) 0
    let ch1 := lane (readReg .scfgChan s) 1
    (readReg .status s).getLsbD 10 = false ↔
      ((∃ n, normalise (nulTerminated s.scfg.callLo s.scfg.callHi) = .ok n) ∧ (readReg .scfgTmin s).toNat ≤ 9 ∧
        1 ≤ (readReg .scfgNoff s).toNat ∧ (readReg .scfgNoff s).toNat ≤ 8 ∧
        (∀ i : Fin 8, i.val < (readReg .scfgNoff s).toNat → (readReg (.scfgOff i) s).toNat ≤ 0xFFFFEED4) ∧
        ((readReg .scfgCtrl s).getLsbD 0 = true →
          (ch0 = chr 'Q' ∨ ch0 = chr '0') ∧ 0x30 ≤ ch1.toNat ∧ ch1.toNat ≤ 0x39))

/-- 43_scheduler.md R249: a tick in Init. -/
def Obligations.TickInInit : Prop :=
  ∀ s : State, s.sched.state = .init →
    ((readReg .status s).getLsbD 10 = true → exec .schedTick s =
      .next { s with lastErr := some .configInvalid, sched := { s.sched with ppsLast := s.sched.ppsCount } }) ∧
    ((readReg .status s).getLsbD 10 = false → exec .schedTick s =
      .next { s with lastErr := none, sched := { s.sched with state := .waitForTime, ppsCount := 0, ppsLast := 0 } })

/-- 43_scheduler.md R250: a tick in WaitForTime; the sum is not wrapped. -/
def Obligations.TickInWaitForTime : Prop :=
  ∀ s : State, s.sched.state = .waitForTime → exec .schedTick s =
    .next { s with lastErr := none, sched := { s.sched with
      state := if (readReg .fixTime s).toNat > (readReg .ppsCount s).toNat + 10 ∧ (readReg .fixSats s).toNat > 0
        then .waitForFix else .waitForTime
      ppsLast := s.sched.ppsCount } }

/-- 43_scheduler.md R251: a tick in WaitForFix, with the one-time RADIO_CONFIGURE; and RADIO_CFGD is cleared by no command but
SCHED_RESET. -/
def Obligations.TickInWaitForFix : Prop :=
  (∀ s : State, s.sched.state = .waitForFix →
    ((readReg .fixLat s ≠ 0#32 ∨ readReg .fixLon s ≠ 0#32) → exec .schedTick s =
      .next { s with
        lastErr := none
        sched := { s.sched with state := .collectTelemetry, radioCfgd := true, ppsLast := s.sched.ppsCount }
        trace := s.trace ++ (if s.sched.radioCfgd then [] else [.radioConfigure]) }) ∧
    (readReg .fixLat s = 0#32 → readReg .fixLon s = 0#32 → exec .schedTick s =
      .next { s with lastErr := none, sched := { s.sched with ppsLast := s.sched.ppsCount } })) ∧
  (∀ (i : Instr) (s t : State), exec i s = .next t → i ≠ .schedReset → s.sched.radioCfgd = true → t.sched.radioCfgd = true)

/-- A beacon cycle (43_scheduler.md R252 to R256, R258): the snapshot is sampled, each sensor field if its SNS_VALID bit is 1 (R255);
the message is the configured callsign, the coarse locator and power 10; everything is committed in one tick, with the log event if
LOG_EN is 1. -/
def Obligations.BeaconCommit : Prop :=
  (∀ (s : State) (loc : Str6) (w : WencRegs), s.sched.state = .collectTelemetry →
    ¬((readReg .scfgCtrl s).getLsbD 0 = true ∧ (readReg .fixTime s).toNat / 100 % 10 = (readReg .scfgTmin s).toNat) →
    locate s.fix.lat s.fix.lon = .ok loc → wsprEncode s.scfg.callLo s.scfg.callHi (strLo loc) 10#8 = .ok w →
    exec .schedTick s = .next { s with
      lastErr := none
      snap := sample s.fix s.sns s.snap
      txbuf := w.sym
      sched := { s.sched with
        msgCallLo := s.scfg.callLo
        msgCallHi := s.scfg.callHi
        msgGrid := strLo loc
        msgPower := 10#8
        msgTelem := false
        msgValid := true
        state := .waitForTransmit
        ppsLast := s.sched.ppsCount }
      trace := s.trace ++ (if (readReg .scfgCtrl s).getLsbD 1 then
        [.log s.fix.date s.fix.time (nulTerminated s.scfg.callLo s.scfg.callHi) (strLo loc) 10#8] else []) }) ∧
  (∀ (f : FixRegs) (n : SnsRegs) (old : Snapshot), sample f n old =
    { time := f.time, date := f.date, lat := f.lat, lon := f.lon, alt := f.alt, sats := f.sats, speed := f.speed
      temp := if n.valid.getLsbD 0 then n.temp else old.temp
      press := if n.valid.getLsbD 1 then n.press else old.press
      vin := if n.valid.getLsbD 2 then n.vin else old.vin
      vsol := if n.valid.getLsbD 3 then n.vsol else old.vsol
      lfront := if n.valid.getLsbD 4 then n.lfront else old.lfront
      lback := if n.valid.getLsbD 5 then n.lback else old.lback })

/-- A telemetry cycle (43_scheduler.md R252 to R255, R257, R258): it samples only if both snapshot voltages are 0; the frame is the
pseudo-callsign of SCFG_CHAN, the subsquare and the snapshot's altitude, with the snapshot's engineering values. -/
def Obligations.TelemetryCommit : Prop :=
  ∀ (s : State) (loc : Str6) (f : CallFrame) (w : WencRegs), s.sched.state = .collectTelemetry →
    ((readReg .scfgCtrl s).getLsbD 0 = true ∧ (readReg .fixTime s).toNat / 100 % 10 = (readReg .scfgTmin s).toNat) →
    let snap := if readReg .snapVin s = 0#32 ∧ readReg .snapVsol s = 0#32 then sample s.fix s.sns s.snap else s.snap
    let eng := encEng snap.temp snap.vin snap.speed (decide (snap.lfront.toNat ≥ snap.lback.toNat)) (decide (snap.sats.toNat ≥ 8))
    locate snap.lat snap.lon = .ok loc → encCall s.scfg.chan (half2 loc.c4 loc.c5) snap.alt = .ok f →
    wsprEncode (strLo f.call) (strHi f.call) eng.grid eng.power = .ok w →
    exec .schedTick s = .next { s with
      lastErr := none
      snap := snap
      txbuf := w.sym
      sched := { s.sched with
        msgCallLo := strLo f.call
        msgCallHi := strHi f.call
        msgGrid := eng.grid
        msgPower := eng.power
        msgTelem := true
        msgValid := true
        state := .waitForTransmit
        ppsLast := s.sched.ppsCount }
      trace := s.trace ++ (if (readReg .scfgCtrl s).getLsbD 1 then
        [.log s.fix.date s.fix.time (strChars f.call) eng.grid eng.power] else []) }

/-- When a build fails and what it then leaves (43_scheduler.md R259, 60_exceptions.md R313, R315): with a valid configuration only the
coordinates, and on a telemetry cycle the altitude, can fail it; the failed tick writes SCHED_ERR, SCHED_ERR_CODE, LAST_ERR and
PPS_LAST and stays in CollectTelemetry; otherwise the tick goes to WaitForTransmit. -/
def Obligations.BuildOutcome : Prop :=
  ∀ s : State, s.sched.state = .collectTelemetry → cfgValid s.scfg = true →
    let telem : Prop := (readReg .scfgCtrl s).getLsbD 0 = true ∧ (readReg .fixTime s).toNat / 100 % 10 = (readReg .scfgTmin s).toNat
    let old : Prop := telem ∧ ¬(readReg .snapVin s = 0#32 ∧ readReg .snapVsol s = 0#32)
    let failed : Err → State := fun e => { s with
      lastErr := some e, schedErr := true, schedErrCode := some e, sched := { s.sched with ppsLast := s.sched.ppsCount } }
    ∀ lat lon alt : Int,
      (old → lat = (readReg .snapLat s).toInt ∧ lon = (readReg .snapLon s).toInt ∧ alt = (readReg .snapAlt s).toInt) →
      (¬old → lat = (readReg .fixLat s).toInt ∧ lon = (readReg .fixLon s).toInt ∧ alt = (readReg .fixAlt s).toInt) →
      let coordsOk : Prop := -90000000 ≤ lat ∧ lat ≤ 90000000 ∧ -180000000 ≤ lon ∧ lon ≤ 180000000
      let altOk : Prop := 0 ≤ alt ∧ alt ≤ 21359
      (¬coordsOk → exec .schedTick s = .next (failed .coordOutOfRange)) ∧
      (coordsOk → telem → ¬altOk → exec .schedTick s = .next (failed .altitudeOutOfRange)) ∧
      (coordsOk → (telem → altOk) → ∃ t, exec .schedTick s = .next t ∧ t.lastErr = none ∧ t.sched.state = .waitForTransmit ∧
        t.sched.msgValid = true)

/-- 43_scheduler.md R260, R261, R262: a tick in WaitForTransmit; fix loss is tested before the slot. -/
def Obligations.TickInWaitForTransmit : Prop :=
  ∀ s : State, s.sched.state = .waitForTransmit →
    (readReg .fixLat s = 0#32 ∧ readReg .fixLon s = 0#32 → exec .schedTick s =
      .next { s with lastErr := none,
                     sched := { s.sched with state := .waitForFix, msgValid := false, ppsLast := s.sched.ppsCount } }) ∧
    (¬(readReg .fixLat s = 0#32 ∧ readReg .fixLon s = 0#32) → exec .schedTick s =
      .next { s with lastErr := none, sched := { s.sched with
        state := if (readReg .fixTime s).toNat / 100 % 100 % 2 = 1 ∧ (readReg .fixTime s).toNat % 100 = 59
          then .awaitPps else .waitForTransmit
        ppsLast := s.sched.ppsCount } })

/-- 43_scheduler.md R263, R264, R266: a tick in AwaitPps. On an edge counted since the previous tick it arms, latching the slot that
OFF_INDEX selects and then rotating OFF_INDEX modulo NOFF; without one it waits. The premise `Inv` rules out the configurations that no
AwaitPps state of a run has. -/
def Obligations.ArmOnPpsEdge : Prop :=
  ∀ s : State, Inv s → s.sched.state = .awaitPps →
    (readReg .ppsCount s ≠ readReg .ppsLast s → ∃ next : BitVec 3,
      next.toNat = ((readReg .offIndex s).toNat + 1) % (readReg .scfgNoff s).toNat ∧
      next.toNat < (readReg .scfgNoff s).toNat ∧
      exec .schedTick s = .next { s with
        lastErr := none
        trace := s.trace ++ [.toneClock true]
        sched := { s.sched with
          txBase := readReg (.scfgOff (Fin.ofNat 8 (readReg .offIndex s).toNat)) s
          txCorr := readReg .scfgCorr s
          offIndex := next
          cursor := 0
          toneRun := true
          state := .transmitting
          ppsLast := s.sched.ppsCount } }) ∧
    (readReg .ppsCount s = readReg .ppsLast s → exec .schedTick s = .next { s with lastErr := none })

/-- 43_scheduler.md R267: a tick in Transmitting. -/
def Obligations.TickInTransmitting : Prop :=
  ∀ s : State, s.sched.state = .transmitting →
    ((readReg .txCursor s).toNat = 162 → exec .schedTick s =
      .next { s with lastErr := none,
                     sched := { s.sched with state := .collectTelemetry, msgValid := false, ppsLast := s.sched.ppsCount } }) ∧
    ((readReg .txCursor s).toNat ≠ 162 → exec .schedTick s =
      .next { s with lastErr := none, sched := { s.sched with ppsLast := s.sched.ppsCount } })

/-- The transitions of 43_scheduler.md R241 and R242 and the PPS sampling of R248: a tick takes at most one row of the table and ends
with PPS_LAST at the count it read, but for the Init transition, which ends with both at 0; no command but SCHED_TICK and SCHED_RESET
changes the state (R240), and none but SCHED_RESET moves it to Init. -/
def Obligations.Transitions : Prop :=
  (∀ s t : State, exec .schedTick s = .next t →
    (t.sched.state = s.sched.state ∨
      (s.sched.state, t.sched.state) ∈ [(.init, .waitForTime), (.waitForTime, .waitForFix), (.waitForFix, .collectTelemetry),
        (.collectTelemetry, .waitForTransmit), (.waitForTransmit, .waitForFix), (.waitForTransmit, .awaitPps),
        (.awaitPps, .transmitting), (.transmitting, .collectTelemetry)]) ∧
    (s.sched.state = .init ∧ t.sched.state = .waitForTime ∧ t.sched.ppsCount = 0 ∧ t.sched.ppsLast = 0 ∨
      ¬(s.sched.state = .init ∧ t.sched.state = .waitForTime) ∧ t.sched.ppsCount = s.sched.ppsCount ∧
        t.sched.ppsLast = s.sched.ppsCount)) ∧
  (∀ (i : Instr) (s t : State), exec i s = .next t →
    (i ≠ .schedTick → i ≠ .schedReset → t.sched.state = s.sched.state) ∧
    (i ≠ .schedReset → t.sched.state = .init → s.sched.state = .init))

/-! ### TONE_TICK, PPS_EDGE, NOP, SCHED_RESET -/

/-- 43_scheduler.md R270 to R274, R277, R278: an accepted TONE_TICK keys the symbol at TX_CURSOR of TXBUF; any other TONE_TICK changes
LAST_ERR alone. -/
def Obligations.ToneTickKeysASymbol : Prop :=
  ∀ s : State,
    let c := (readReg .txCursor s).toNat
    let sym := (readReg (.txbuf (Fin.ofNat 11 (c / 16))) s).extractLsb' (2 * (c % 16)) 2
    let off := BitVec.ofNat 32 ((readReg .txBase s).toNat + sym.toNat * 1465)
    (s.sched.state = .transmitting → s.sched.toneRun = true → c < 162 → exec .toneTick s =
      .next { s with
        lastErr := none
        sched := { s.sched with
          cursor := BitVec.ofNat 8 (c + 1)
          toneLast := off
          rfOn := if c = 161 then false else if c = 0 then true else s.sched.rfOn
          toneRun := if c = 161 then false else true }
        trace := s.trace ++ ((if c = 0 then [.rfEnable true] else []) ++ [.setTone off (readReg .txCorr s)] ++
          (if c = 161 then [.rfEnable false, .toneClock false] else [])) }) ∧
    (¬(s.sched.state = .transmitting ∧ s.sched.toneRun = true ∧ c < 162) → exec .toneTick s = .next { s with lastErr := none })

/-- 43_scheduler.md R283, R285, R287: PPS_EDGE, NOP and SCHED_RESET. SCHED_RESET emits both events whatever the levels were and leaves
SCHED_ERR, SCHED_ERR_CODE, SCFG, FIX, SNS and the codec registers. -/
def Obligations.EdgeNopAndReset : Prop :=
  ∀ s : State,
    exec .ppsEdge s = .next { s with
      lastErr := none, sched := { s.sched with ppsCount := BitVec.ofNat 32 ((s.sched.ppsCount.toNat + 1) % 2 ^ 32) } } ∧
    exec .nop s = .next { s with lastErr := none } ∧
    ∃ t, exec .schedReset s = .next t ∧ t.trace = s.trace ++ [.rfEnable false, .toneClock false] ∧ t.lastErr = none ∧
      t.schedErr = s.schedErr ∧ t.schedErrCode = s.schedErrCode ∧ t.accessErr = s.accessErr ∧ t.scfg = s.scfg ∧ t.fix = s.fix ∧
      t.sns = s.sns ∧ t.codec = s.codec ∧ t.wenc = s.wenc ∧ interfaceSame s t ∧
      ∀ r : Reg, 0x400 ≤ (regOffset r).toNat → readReg r t = 0#32

/-- No tone offset wraps in a state the invariant allows (43_scheduler.md R276): TX_BASE leaves room for the largest symbol, so an
accepted TONE_TICK sets TONE_LAST to the exact sum. -/
def Obligations.ToneOffsetsNeverWrap : Prop :=
  ∀ s t : State, Inv s → s.sched.toneRun = true → exec .toneTick s = .next t →
    t.sched.toneLast.toNat = s.sched.txBase.toNat + (symbolAt s.txbuf s.sched.cursor.toNat).toNat * 1465 ∧
    t.sched.cursor.toNat = s.sched.cursor.toNat + 1

/-- A whole message (43_scheduler.md R270 to R278, R291): from an armed transmission, 162 TONE_TICKs emit RF_ENABLE(1), one SET_TONE per
symbol in index order, RF_ENABLE(0) and TONE_CLOCK(0), leave everything but TX_CURSOR, TONE_LAST, RF_ON, TONE_RUN and LAST_ERR alone,
and the next SCHED_TICK moves to CollectTelemetry. -/
def Obligations.WholeMessage : Prop :=
  ∀ s : State, s.sched.state = .transmitting → s.sched.toneRun = true → s.sched.cursor = 0 →
    let off : Nat → Word := fun k => s.sched.txBase + BitVec.ofNat 32 ((symbolAt s.txbuf k).toNat * 1465)
    let done := { s with
      lastErr := none
      sched := { s.sched with cursor := 162, toneLast := off 161, rfOn := false, toneRun := false }
      trace := s.trace ++ [.rfEnable true] ++ (List.range 162).map (fun k => .setTone (off k) s.sched.txCorr) ++
        [.rfEnable false, .toneClock false] }
    execAll (List.replicate 162 .toneTick) s = .next done ∧
    execAll (List.replicate 162 .toneTick ++ [.schedTick]) s = .next { done with
      sched := { done.sched with state := .collectTelemetry, msgValid := false, ppsLast := s.sched.ppsCount } }

/-- The liveness of 43_scheduler.md R291 on one schedule: from Init with a valid configuration, a fix that is present, in range and at
second 59 of an odd minute, and a held snapshot in range (a telemetry cycle may build from it, R254), five ticks, a PPS edge and a tick reach Transmitting with the message armed; 162 tone ticks and a tick
return to CollectTelemetry. -/
def Obligations.SchedulerLiveness : Prop :=
  ∀ s : State, s.sched.state = .init → cfgValid s.scfg = true →
    10 < s.fix.time.toNat → 0 < s.fix.sats.toNat → (s.fix.lat ≠ 0#32 ∨ s.fix.lon ≠ 0#32) →
    coordsInRange s.fix.lat.toInt s.fix.lon.toInt = true → altitudeLegal s.fix.alt.toInt = true →
    coordsInRange s.snap.lat.toInt s.snap.lon.toInt = true → altitudeLegal s.snap.alt.toInt = true →
    s.fix.time.toNat / 100 % 100 % 2 = 1 → s.fix.time.toNat % 100 = 59 →
    ∃ armed sent back,
      execAll [.schedTick, .schedTick, .schedTick, .schedTick, .schedTick, .ppsEdge, .schedTick] s = .next armed ∧
      armed.sched.state = .transmitting ∧ armed.sched.cursor = 0 ∧ armed.sched.toneRun = true ∧ armed.sched.msgValid = true ∧
      execAll (List.replicate 162 .toneTick) armed = .next sent ∧ sent.sched.state = .transmitting ∧ sent.sched.cursor = 162 ∧
      execAll [.schedTick] sent = .next back ∧ back.sched.state = .collectTelemetry ∧ back.lastErr = none

/-! ### Whole-machine rules -/

/-- The message in flight cannot be changed (43_scheduler.md R252, R265; 20_memory.md R83; 70_reset_and_hazards.md R350): while a message
is pending or in flight, no step but SCHED_RESET and hardware reset changes TXBUF or the message registers, and in Transmitting none
changes the latched base and correction. -/
def Obligations.MessageIsFrozen : Prop :=
  ∀ s t : State, messageState s.sched.state = true → (∀ b rest, s.pending ≠ .rst b :: rest) →
    (∀ rest, s.pending ≠ .write 0x004#12 4 0x1F#32 :: rest) → step s = .next t →
    t.txbuf = s.txbuf ∧ t.sched.msgCallLo = s.sched.msgCallLo ∧ t.sched.msgCallHi = s.sched.msgCallHi ∧
    t.sched.msgGrid = s.sched.msgGrid ∧ t.sched.msgPower = s.sched.msgPower ∧ t.sched.msgTelem = s.sched.msgTelem ∧
    (s.sched.state = .transmitting → t.sched.txBase = s.sched.txBase ∧ t.sched.txCorr = s.sched.txCorr)

/-- The scheduler and the codec commands do not see each other's registers (43_scheduler.md R252; 41_wspr_encoder.md R162): a command of
SCHED gives the same result whatever the codec and WENC registers hold, and leaves them; a codec command gives the same result whatever
the scheduler, configuration, fix, sensor and snapshot registers hold, and leaves them. -/
def Obligations.UnitsAreIsolated : Prop :=
  (∀ (i : Instr) (s t : State) (c : CodecRegs) (w : WencRegs), i ∈ [.schedTick, .toneTick, .ppsEdge, .schedReset] →
    exec i s = .next t → exec i { s with codec := c, wenc := w } = .next { t with codec := c, wenc := w }) ∧
  (∀ (i : Instr) (s t : State) (g : ScfgRegs) (f : FixRegs) (n : SnsRegs) (c : SchedRegs) (p : Snapshot) (x : BitVec 324),
    i ∈ [.locate, .wsprEncode, .u4bEncCall, .u4bEncEng, .u4bDecCall, .u4bDecEng] → exec i s = .next t →
    exec i { s with scfg := g, fix := f, sns := n, sched := c, snap := p, txbuf := x } =
      .next { t with scfg := g, fix := f, sns := n, sched := c, snap := p, txbuf := x })

/-- The race of 70_reset_and_hazards.md R347: a SCHED_TICK before the last TONE_TICK stays in Transmitting and one after it moves to
CollectTelemetry, and once a SCHED_TICK follows the tone tick both orders have given the same state. -/
def Obligations.TickToneRace : Prop :=
  ∀ s : State, s.sched.state = .transmitting → s.sched.cursor.toNat < 162 →
    execAll [.schedTick, .toneTick, .schedTick] s = execAll [.toneTick, .schedTick] s ∧
    (s.sched.cursor = 161 → s.sched.toneRun = true →
      (∃ t, execAll [.schedTick] s = .next t ∧ t.sched.state = .transmitting) ∧
      ∃ t, execAll [.toneTick, .schedTick] s = .next t ∧ t.sched.state = .collectTelemetry)

/-- The order of simultaneous PPS edges and tone ticks does not matter (60_exceptions.md R317, 30_encoding.md R104): every interleaving
of the edges of the two pins, of any length, ends in the same state. -/
def Obligations.EdgeOrderDoesNotMatter : Prop :=
  ∀ (m n : Nat) (order : List Instr) (s : State),
    Interleaving (List.replicate m .ppsEdge) (List.replicate n .toneTick) order →
    execAll order s = execAll (List.replicate m .ppsEdge ++ List.replicate n .toneTick) s
end

