-- ==== Sys2Proof/Laws/Bits.lean ====
section
/-! SUPPORT. Laws of the bit vectors by element, byte lanes, strings, characters and number helpers of Machine/Operands.lean. -/

namespace Sys2Proof.Machine

/-! ### Bit vectors by element -/

/-- Bit k of `bitsOf f n` is `f k`. -/
theorem getLsbD_bitsOf (f : Nat → Bool) (n k : Nat) : (bitsOf f n).getLsbD k = (decide (k < n) && f k) := by
  induction n with
  | zero => simp [bitsOf]
  | succ n ih =>
    rw [bitsOf, BitVec.getLsbD_cons, ih]
    by_cases h : k = n
    · simp [h]
    · have h1 : (k < n + 1) = (k < n) := by simp; omega
      simp [h, h1]

/-- Bit j of `putBit x k b`. -/
theorem getLsbD_putBit {n : Nat} (x : BitVec n) (k j : Nat) (b : Bool) (hk : k < n) :
    (putBit x k b).getLsbD j = if j = k then b else x.getLsbD j := by
  by_cases h : j = k
  · subst h
    have h0 : 0 < n := by omega
    cases b <;> simp [putBit, hk]
  · by_cases hlt : j < k
    · simp [putBit, h, hlt]
      omega
    · have h2 : ¬ (j - k = 0) := by omega
      by_cases hj : j < n
      · simp [putBit, h, hlt, h2, hj]
      · have := BitVec.getLsbD_of_ge x j (by omega)
        simp [putBit, h, hj, this]

/-- Bit i of word w of a buffer is bit 32w + i of the buffer (10_state.md R39 to R41). -/
theorem getLsbD_bufWord {n : Nat} (x : BitVec n) (w i : Nat) :
    (bufWord x w).getLsbD i = (decide (i < 32) && x.getLsbD (32 * w + i)) := by simp [bufWord]

/-- Bit i of symbol k is bit 2k + i of the buffer (10_state.md R41). -/
theorem getLsbD_symbolAt (x : BitVec 324) (k i : Nat) :
    (symbolAt x k).getLsbD i = (decide (i < 2) && x.getLsbD (2 * k + i)) := by simp [symbolAt]

/-! ### Lanes and strings -/

/-- Bit i of a 4-character register is bit i mod 8 of its character i // 8 (20_memory.md R75). -/
theorem getLsbD_word4 (a b c d : Byte) (i : Nat) :
    (word4 a b c d).getLsbD i =
      if i < 8 then a.getLsbD i else if i < 16 then b.getLsbD (i - 8) else if i < 24 then c.getLsbD (i - 16)
      else d.getLsbD (i - 24) := by
  show ((((d ++ c) ++ b) ++ a : BitVec (8 + 8 + 8 + 8))).getLsbD i = _
  rw [BitVec.getLsbD_append, BitVec.getLsbD_append, BitVec.getLsbD_append]
  have h1 : i - 8 < 8 ↔ i < 16 := by omega
  have h2 : i - 16 < 8 ↔ i < 24 := by omega
  simp only [h1, h2, show i - 8 - 8 = i - 16 by omega, show i - 16 - 8 = i - 24 by omega]

/-- Bit i of a 2-character register (30_encoding.md R93). -/
theorem getLsbD_half2 (a b : Byte) (i : Nat) :
    (half2 a b).getLsbD i = if i < 8 then a.getLsbD i else b.getLsbD (i - 8) := by
  show ((b ++ a : BitVec (8 + 8))).getLsbD i = _
  rw [BitVec.getLsbD_append]

@[simp] theorem lane_word4_0 (a b c d : Byte) : lane (word4 a b c d) 0 = a := by
  apply BitVec.eq_of_getLsbD_eq; intro i hi
  simp [lane, getLsbD_word4, hi]

@[simp] theorem lane_word4_1 (a b c d : Byte) : lane (word4 a b c d) 1 = b := by
  apply BitVec.eq_of_getLsbD_eq; intro i hi
  simp [lane, getLsbD_word4, hi, show 8 + i < 16 by omega]

@[simp] theorem lane_word4_2 (a b c d : Byte) : lane (word4 a b c d) 2 = c := by
  apply BitVec.eq_of_getLsbD_eq; intro i hi
  simp [lane, getLsbD_word4, hi, show ¬ 16 + i < 8 by omega, show 16 + i < 24 by omega]

@[simp] theorem lane_word4_3 (a b c d : Byte) : lane (word4 a b c d) 3 = d := by
  apply BitVec.eq_of_getLsbD_eq; intro i hi
  simp [lane, getLsbD_word4, hi, show ¬ 24 + i < 8 by omega, show ¬ 24 + i < 16 by omega]

@[simp] theorem lane_half2_0 (a b : Byte) : lane (half2 a b) 0 = a := by
  apply BitVec.eq_of_getLsbD_eq; intro i hi
  simp [lane, getLsbD_half2, hi]

@[simp] theorem lane_half2_1 (a b : Byte) : lane (half2 a b) 1 = b := by
  apply BitVec.eq_of_getLsbD_eq; intro i hi
  simp [lane, getLsbD_half2, hi]

/-- A 4-character register is its four lanes (20_memory.md R75). -/
@[simp] theorem word4_lanes (w : Word) : word4 (lane w 0) (lane w 1) (lane w 2) (lane w 3) = w := by
  apply BitVec.eq_of_getLsbD_eq; intro i hi
  rw [getLsbD_word4]
  split
  · simp [lane]; omega
  · split
    · simp [lane, show i - 8 < 8 by omega, show 8 + (i - 8) = i by omega]
    · split
      · simp [lane, show i - 16 < 8 by omega, show 16 + (i - 16) = i by omega]
      · simp [lane, show i - 24 < 8 by omega, show 24 + (i - 24) = i by omega]

/-- A 2-character register is its two lanes (30_encoding.md R93). -/
@[simp] theorem half2_lanes (h : BitVec 16) : half2 (lane h 0) (lane h 1) = h := by
  apply BitVec.eq_of_getLsbD_eq; intro i hi
  rw [getLsbD_half2]
  split
  · simp [lane]; omega
  · simp [lane, show i - 8 < 8 by omega, show 8 + (i - 8) = i by omega]

/-- Reading back a string written to a register pair gives the string (20_memory.md R75). -/
@[simp] theorem str6Of_str (s : Str6) : str6Of (strLo s) (strHi s) = s := by
  simp [str6Of, strLo, strHi]

@[simp] theorem strLo_str6Of (lo : Word) (hi : BitVec 16) : strLo (str6Of lo hi) = lo := by simp [strLo, str6Of]

@[simp] theorem strHi_str6Of (lo : Word) (hi : BitVec 16) : strHi (str6Of lo hi) = hi := by simp [strHi, str6Of]

/-- The original string of a pair that holds no NUL is all six characters (30_encoding.md R94). -/
theorem nulTerminated_str {s : Str6} (h : ∀ c ∈ strChars s, c ≠ chNul) : nulTerminated (strLo s) (strHi s) = strChars s := by
  rw [nulTerminated, str6Of_str, List.takeWhile_eq_self_iff]
  simpa using h

/-! ### Characters -/

/-- The code of the character k places after c, while it stays a byte (00_scope.md R10). -/
theorem toNat_chrPlus {c : Char} {k : Nat} (h : c.toNat + k < 256) : (chrPlus c k).toNat = c.toNat + k := by
  simp [chrPlus, BitVec.toNat_ofNat]; omega

/-- '0'+k is a digit for k below 10. -/
theorem isDigit_chrPlus {k : Nat} (h : k < 10) : isDigit (chrPlus '0' k) = true := by
  simp [isDigit, toNat_chrPlus (c := '0') (k := k) (by simp; omega)]; omega

/-- 'A'+k is a FIELD letter for k below 18. -/
theorem isField_chrPlus {k : Nat} (h : k < 18) : isField (chrPlus 'A' k) = true := by
  simp [isField, toNat_chrPlus (c := 'A') (k := k) (by simp; omega)]; omega

/-- 'A'+k is an uppercase letter for k below 26. -/
theorem isUpper_chrPlus {k : Nat} (h : k < 26) : isUpper (chrPlus 'A' k) = true := by
  simp [isUpper, toNat_chrPlus (c := 'A') (k := k) (by simp; omega)]; omega

/-- 'a'+k is a subsquare letter for k below 24. -/
theorem isLowerAX_chrPlus {k : Nat} (h : k < 24) : isLowerAX (chrPlus 'a' k) = true := by
  simp [isLowerAX, toNat_chrPlus (c := 'a') (k := k) (by simp; omega)]; omega

/-- The digit value of '0'+k. -/
theorem digitVal_chrPlus {k : Nat} (h : k < 10) : digitVal (chrPlus '0' k) = k := by
  simp [digitVal, toNat_chrPlus (c := '0') (k := k) (by simp; omega)]

/-- The letter value of 'A'+k. -/
theorem upperVal_chrPlus {k : Nat} (h : k < 26) : upperVal (chrPlus 'A' k) = k := by
  simp [upperVal, toNat_chrPlus (c := 'A') (k := k) (by simp; omega)]

/-- The letter value of 'a'+k. -/
theorem lowerVal_chrPlus {k : Nat} (h : k < 24) : lowerVal (chrPlus 'a' k) = k := by
  simp [lowerVal, toNat_chrPlus (c := 'a') (k := k) (by simp; omega)]

/-- A base-36 character is a digit or an uppercase letter (42_u4b_codec.md R196). -/
theorem chr36_class {v : Nat} (h : v < 36) : (isDigit (chr36 v) || isUpper (chr36 v)) = true := by
  by_cases h10 : v < 10
  · simp [chr36, h10, isDigit_chrPlus]
  · simp [chr36, h10, isUpper_chrPlus (k := v - 10) (by omega)]

/-- A base-36 character has its value back (42_u4b_codec.md R196, R218). -/
theorem val36_chr36 {v : Nat} (h : v < 36) : val36 (chr36 v) = v := by
  by_cases h10 : v < 10
  · simp [chr36, h10, val36, isDigit_chrPlus, digitVal_chrPlus]
  · have hn : isDigit (chrPlus 'A' (v - 10)) = false := by
      simp [isDigit, toNat_chrPlus (c := 'A') (k := v - 10) (by simp; omega)]; omega
    simp [chr36, h10, val36, hn, upperVal_chrPlus (k := v - 10) (by omega)]; omega

/-- An uppercase letter is 'A' plus its value. -/
theorem chrPlus_upperVal {b : Byte} (h : isUpper b = true) : chrPlus 'A' (upperVal b) = b := by
  simp [isUpper] at h
  apply BitVec.eq_of_toNat_eq
  rw [toNat_chrPlus] <;> simp [upperVal] <;> omega

/-- A subsquare letter is 'a' plus its value. -/
theorem chrPlus_lowerVal {b : Byte} (h : isLowerAX b = true) : chrPlus 'a' (lowerVal b) = b := by
  simp [isLowerAX] at h
  apply BitVec.eq_of_toNat_eq
  rw [toNat_chrPlus] <;> simp [lowerVal] <;> omega

/-- The value of a subsquare letter is below 24 (42_u4b_codec.md R194). -/
theorem lowerVal_lt {b : Byte} (h : isLowerAX b = true) : lowerVal b < 24 := by
  simp [isLowerAX] at h; simp [lowerVal]; omega

/-- The value of a FIELD letter is below 18. -/
theorem upperVal_lt_field {b : Byte} (h : isField b = true) : upperVal b < 18 := by
  simp [isField] at h; simp [upperVal]; omega

/-- The value of an uppercase letter is below 26. -/
theorem upperVal_lt {b : Byte} (h : isUpper b = true) : upperVal b < 26 := by
  simp [isUpper] at h; simp [upperVal]; omega

/-- The value of a digit is below 10. -/
theorem digitVal_lt {b : Byte} (h : isDigit b = true) : digitVal b < 10 := by
  simp [isDigit] at h; simp [digitVal]; omega

/-! ### Offset slots -/

/-- Reading slot j after writing slot i (10_state.md R48). -/
theorem offsetSlot_set (o : Offsets) (i j : Fin 8) (v : Word) :
    offsetSlot (setOffsetSlot o i v) j = if j = i then v else offsetSlot o j := by
  fin_cases i <;> fin_cases j <;> rfl

end Sys2Proof.Machine
end

