-- ==== Sys2Proof/Laws/State.lean ====
section
/-! SUPPORT. One lemma per field per update of State, so that no proof unfolds a record update. -/

namespace Sys2Proof.Machine.State

/-! ### setLastErr -/

@[simp] theorem setLastErr_lastErr (s : State) (x : Option Err) : (s.setLastErr x).lastErr = x := rfl
@[simp] theorem setLastErr_accessErr (s : State) (x : Option Err) : (s.setLastErr x).accessErr = s.accessErr := rfl
@[simp] theorem setLastErr_schedErr (s : State) (x : Option Err) : (s.setLastErr x).schedErr = s.schedErr := rfl
@[simp] theorem setLastErr_schedErrCode (s : State) (x : Option Err) : (s.setLastErr x).schedErrCode = s.schedErrCode := rfl
@[simp] theorem setLastErr_codec (s : State) (x : Option Err) : (s.setLastErr x).codec = s.codec := rfl
@[simp] theorem setLastErr_wenc (s : State) (x : Option Err) : (s.setLastErr x).wenc = s.wenc := rfl
@[simp] theorem setLastErr_scfg (s : State) (x : Option Err) : (s.setLastErr x).scfg = s.scfg := rfl
@[simp] theorem setLastErr_fix (s : State) (x : Option Err) : (s.setLastErr x).fix = s.fix := rfl
@[simp] theorem setLastErr_sns (s : State) (x : Option Err) : (s.setLastErr x).sns = s.sns := rfl
@[simp] theorem setLastErr_sched (s : State) (x : Option Err) : (s.setLastErr x).sched = s.sched := rfl
@[simp] theorem setLastErr_snap (s : State) (x : Option Err) : (s.setLastErr x).snap = s.snap := rfl
@[simp] theorem setLastErr_txbuf (s : State) (x : Option Err) : (s.setLastErr x).txbuf = s.txbuf := rfl
@[simp] theorem setLastErr_trace (s : State) (x : Option Err) : (s.setLastErr x).trace = s.trace := rfl
@[simp] theorem setLastErr_pending (s : State) (x : Option Err) : (s.setLastErr x).pending = s.pending := rfl
@[simp] theorem setLastErr_reads (s : State) (x : Option Err) : (s.setLastErr x).reads = s.reads := rfl
@[simp] theorem setLastErr_inReset (s : State) (x : Option Err) : (s.setLastErr x).inReset = s.inReset := rfl

/-! ### setAccessErr -/

@[simp] theorem setAccessErr_lastErr (s : State) (x : Bool) : (s.setAccessErr x).lastErr = s.lastErr := rfl
@[simp] theorem setAccessErr_accessErr (s : State) (x : Bool) : (s.setAccessErr x).accessErr = x := rfl
@[simp] theorem setAccessErr_schedErr (s : State) (x : Bool) : (s.setAccessErr x).schedErr = s.schedErr := rfl
@[simp] theorem setAccessErr_schedErrCode (s : State) (x : Bool) : (s.setAccessErr x).schedErrCode = s.schedErrCode := rfl
@[simp] theorem setAccessErr_codec (s : State) (x : Bool) : (s.setAccessErr x).codec = s.codec := rfl
@[simp] theorem setAccessErr_wenc (s : State) (x : Bool) : (s.setAccessErr x).wenc = s.wenc := rfl
@[simp] theorem setAccessErr_scfg (s : State) (x : Bool) : (s.setAccessErr x).scfg = s.scfg := rfl
@[simp] theorem setAccessErr_fix (s : State) (x : Bool) : (s.setAccessErr x).fix = s.fix := rfl
@[simp] theorem setAccessErr_sns (s : State) (x : Bool) : (s.setAccessErr x).sns = s.sns := rfl
@[simp] theorem setAccessErr_sched (s : State) (x : Bool) : (s.setAccessErr x).sched = s.sched := rfl
@[simp] theorem setAccessErr_snap (s : State) (x : Bool) : (s.setAccessErr x).snap = s.snap := rfl
@[simp] theorem setAccessErr_txbuf (s : State) (x : Bool) : (s.setAccessErr x).txbuf = s.txbuf := rfl
@[simp] theorem setAccessErr_trace (s : State) (x : Bool) : (s.setAccessErr x).trace = s.trace := rfl
@[simp] theorem setAccessErr_pending (s : State) (x : Bool) : (s.setAccessErr x).pending = s.pending := rfl
@[simp] theorem setAccessErr_reads (s : State) (x : Bool) : (s.setAccessErr x).reads = s.reads := rfl
@[simp] theorem setAccessErr_inReset (s : State) (x : Bool) : (s.setAccessErr x).inReset = s.inReset := rfl

/-! ### setSchedErr -/

@[simp] theorem setSchedErr_lastErr (s : State) (x : Bool) : (s.setSchedErr x).lastErr = s.lastErr := rfl
@[simp] theorem setSchedErr_accessErr (s : State) (x : Bool) : (s.setSchedErr x).accessErr = s.accessErr := rfl
@[simp] theorem setSchedErr_schedErr (s : State) (x : Bool) : (s.setSchedErr x).schedErr = x := rfl
@[simp] theorem setSchedErr_schedErrCode (s : State) (x : Bool) : (s.setSchedErr x).schedErrCode = s.schedErrCode := rfl
@[simp] theorem setSchedErr_codec (s : State) (x : Bool) : (s.setSchedErr x).codec = s.codec := rfl
@[simp] theorem setSchedErr_wenc (s : State) (x : Bool) : (s.setSchedErr x).wenc = s.wenc := rfl
@[simp] theorem setSchedErr_scfg (s : State) (x : Bool) : (s.setSchedErr x).scfg = s.scfg := rfl
@[simp] theorem setSchedErr_fix (s : State) (x : Bool) : (s.setSchedErr x).fix = s.fix := rfl
@[simp] theorem setSchedErr_sns (s : State) (x : Bool) : (s.setSchedErr x).sns = s.sns := rfl
@[simp] theorem setSchedErr_sched (s : State) (x : Bool) : (s.setSchedErr x).sched = s.sched := rfl
@[simp] theorem setSchedErr_snap (s : State) (x : Bool) : (s.setSchedErr x).snap = s.snap := rfl
@[simp] theorem setSchedErr_txbuf (s : State) (x : Bool) : (s.setSchedErr x).txbuf = s.txbuf := rfl
@[simp] theorem setSchedErr_trace (s : State) (x : Bool) : (s.setSchedErr x).trace = s.trace := rfl
@[simp] theorem setSchedErr_pending (s : State) (x : Bool) : (s.setSchedErr x).pending = s.pending := rfl
@[simp] theorem setSchedErr_reads (s : State) (x : Bool) : (s.setSchedErr x).reads = s.reads := rfl
@[simp] theorem setSchedErr_inReset (s : State) (x : Bool) : (s.setSchedErr x).inReset = s.inReset := rfl

/-! ### setSchedErrCode -/

@[simp] theorem setSchedErrCode_lastErr (s : State) (x : Option Err) : (s.setSchedErrCode x).lastErr = s.lastErr := rfl
@[simp] theorem setSchedErrCode_accessErr (s : State) (x : Option Err) : (s.setSchedErrCode x).accessErr = s.accessErr := rfl
@[simp] theorem setSchedErrCode_schedErr (s : State) (x : Option Err) : (s.setSchedErrCode x).schedErr = s.schedErr := rfl
@[simp] theorem setSchedErrCode_schedErrCode (s : State) (x : Option Err) : (s.setSchedErrCode x).schedErrCode = x := rfl
@[simp] theorem setSchedErrCode_codec (s : State) (x : Option Err) : (s.setSchedErrCode x).codec = s.codec := rfl
@[simp] theorem setSchedErrCode_wenc (s : State) (x : Option Err) : (s.setSchedErrCode x).wenc = s.wenc := rfl
@[simp] theorem setSchedErrCode_scfg (s : State) (x : Option Err) : (s.setSchedErrCode x).scfg = s.scfg := rfl
@[simp] theorem setSchedErrCode_fix (s : State) (x : Option Err) : (s.setSchedErrCode x).fix = s.fix := rfl
@[simp] theorem setSchedErrCode_sns (s : State) (x : Option Err) : (s.setSchedErrCode x).sns = s.sns := rfl
@[simp] theorem setSchedErrCode_sched (s : State) (x : Option Err) : (s.setSchedErrCode x).sched = s.sched := rfl
@[simp] theorem setSchedErrCode_snap (s : State) (x : Option Err) : (s.setSchedErrCode x).snap = s.snap := rfl
@[simp] theorem setSchedErrCode_txbuf (s : State) (x : Option Err) : (s.setSchedErrCode x).txbuf = s.txbuf := rfl
@[simp] theorem setSchedErrCode_trace (s : State) (x : Option Err) : (s.setSchedErrCode x).trace = s.trace := rfl
@[simp] theorem setSchedErrCode_pending (s : State) (x : Option Err) : (s.setSchedErrCode x).pending = s.pending := rfl
@[simp] theorem setSchedErrCode_reads (s : State) (x : Option Err) : (s.setSchedErrCode x).reads = s.reads := rfl
@[simp] theorem setSchedErrCode_inReset (s : State) (x : Option Err) : (s.setSchedErrCode x).inReset = s.inReset := rfl

/-! ### setCodec -/

@[simp] theorem setCodec_lastErr (s : State) (x : CodecRegs) : (s.setCodec x).lastErr = s.lastErr := rfl
@[simp] theorem setCodec_accessErr (s : State) (x : CodecRegs) : (s.setCodec x).accessErr = s.accessErr := rfl
@[simp] theorem setCodec_schedErr (s : State) (x : CodecRegs) : (s.setCodec x).schedErr = s.schedErr := rfl
@[simp] theorem setCodec_schedErrCode (s : State) (x : CodecRegs) : (s.setCodec x).schedErrCode = s.schedErrCode := rfl
@[simp] theorem setCodec_codec (s : State) (x : CodecRegs) : (s.setCodec x).codec = x := rfl
@[simp] theorem setCodec_wenc (s : State) (x : CodecRegs) : (s.setCodec x).wenc = s.wenc := rfl
@[simp] theorem setCodec_scfg (s : State) (x : CodecRegs) : (s.setCodec x).scfg = s.scfg := rfl
@[simp] theorem setCodec_fix (s : State) (x : CodecRegs) : (s.setCodec x).fix = s.fix := rfl
@[simp] theorem setCodec_sns (s : State) (x : CodecRegs) : (s.setCodec x).sns = s.sns := rfl
@[simp] theorem setCodec_sched (s : State) (x : CodecRegs) : (s.setCodec x).sched = s.sched := rfl
@[simp] theorem setCodec_snap (s : State) (x : CodecRegs) : (s.setCodec x).snap = s.snap := rfl
@[simp] theorem setCodec_txbuf (s : State) (x : CodecRegs) : (s.setCodec x).txbuf = s.txbuf := rfl
@[simp] theorem setCodec_trace (s : State) (x : CodecRegs) : (s.setCodec x).trace = s.trace := rfl
@[simp] theorem setCodec_pending (s : State) (x : CodecRegs) : (s.setCodec x).pending = s.pending := rfl
@[simp] theorem setCodec_reads (s : State) (x : CodecRegs) : (s.setCodec x).reads = s.reads := rfl
@[simp] theorem setCodec_inReset (s : State) (x : CodecRegs) : (s.setCodec x).inReset = s.inReset := rfl

/-! ### setWenc -/

@[simp] theorem setWenc_lastErr (s : State) (x : WencRegs) : (s.setWenc x).lastErr = s.lastErr := rfl
@[simp] theorem setWenc_accessErr (s : State) (x : WencRegs) : (s.setWenc x).accessErr = s.accessErr := rfl
@[simp] theorem setWenc_schedErr (s : State) (x : WencRegs) : (s.setWenc x).schedErr = s.schedErr := rfl
@[simp] theorem setWenc_schedErrCode (s : State) (x : WencRegs) : (s.setWenc x).schedErrCode = s.schedErrCode := rfl
@[simp] theorem setWenc_codec (s : State) (x : WencRegs) : (s.setWenc x).codec = s.codec := rfl
@[simp] theorem setWenc_wenc (s : State) (x : WencRegs) : (s.setWenc x).wenc = x := rfl
@[simp] theorem setWenc_scfg (s : State) (x : WencRegs) : (s.setWenc x).scfg = s.scfg := rfl
@[simp] theorem setWenc_fix (s : State) (x : WencRegs) : (s.setWenc x).fix = s.fix := rfl
@[simp] theorem setWenc_sns (s : State) (x : WencRegs) : (s.setWenc x).sns = s.sns := rfl
@[simp] theorem setWenc_sched (s : State) (x : WencRegs) : (s.setWenc x).sched = s.sched := rfl
@[simp] theorem setWenc_snap (s : State) (x : WencRegs) : (s.setWenc x).snap = s.snap := rfl
@[simp] theorem setWenc_txbuf (s : State) (x : WencRegs) : (s.setWenc x).txbuf = s.txbuf := rfl
@[simp] theorem setWenc_trace (s : State) (x : WencRegs) : (s.setWenc x).trace = s.trace := rfl
@[simp] theorem setWenc_pending (s : State) (x : WencRegs) : (s.setWenc x).pending = s.pending := rfl
@[simp] theorem setWenc_reads (s : State) (x : WencRegs) : (s.setWenc x).reads = s.reads := rfl
@[simp] theorem setWenc_inReset (s : State) (x : WencRegs) : (s.setWenc x).inReset = s.inReset := rfl

/-! ### setScfg -/

@[simp] theorem setScfg_lastErr (s : State) (x : ScfgRegs) : (s.setScfg x).lastErr = s.lastErr := rfl
@[simp] theorem setScfg_accessErr (s : State) (x : ScfgRegs) : (s.setScfg x).accessErr = s.accessErr := rfl
@[simp] theorem setScfg_schedErr (s : State) (x : ScfgRegs) : (s.setScfg x).schedErr = s.schedErr := rfl
@[simp] theorem setScfg_schedErrCode (s : State) (x : ScfgRegs) : (s.setScfg x).schedErrCode = s.schedErrCode := rfl
@[simp] theorem setScfg_codec (s : State) (x : ScfgRegs) : (s.setScfg x).codec = s.codec := rfl
@[simp] theorem setScfg_wenc (s : State) (x : ScfgRegs) : (s.setScfg x).wenc = s.wenc := rfl
@[simp] theorem setScfg_scfg (s : State) (x : ScfgRegs) : (s.setScfg x).scfg = x := rfl
@[simp] theorem setScfg_fix (s : State) (x : ScfgRegs) : (s.setScfg x).fix = s.fix := rfl
@[simp] theorem setScfg_sns (s : State) (x : ScfgRegs) : (s.setScfg x).sns = s.sns := rfl
@[simp] theorem setScfg_sched (s : State) (x : ScfgRegs) : (s.setScfg x).sched = s.sched := rfl
@[simp] theorem setScfg_snap (s : State) (x : ScfgRegs) : (s.setScfg x).snap = s.snap := rfl
@[simp] theorem setScfg_txbuf (s : State) (x : ScfgRegs) : (s.setScfg x).txbuf = s.txbuf := rfl
@[simp] theorem setScfg_trace (s : State) (x : ScfgRegs) : (s.setScfg x).trace = s.trace := rfl
@[simp] theorem setScfg_pending (s : State) (x : ScfgRegs) : (s.setScfg x).pending = s.pending := rfl
@[simp] theorem setScfg_reads (s : State) (x : ScfgRegs) : (s.setScfg x).reads = s.reads := rfl
@[simp] theorem setScfg_inReset (s : State) (x : ScfgRegs) : (s.setScfg x).inReset = s.inReset := rfl

/-! ### setFix -/

@[simp] theorem setFix_lastErr (s : State) (x : FixRegs) : (s.setFix x).lastErr = s.lastErr := rfl
@[simp] theorem setFix_accessErr (s : State) (x : FixRegs) : (s.setFix x).accessErr = s.accessErr := rfl
@[simp] theorem setFix_schedErr (s : State) (x : FixRegs) : (s.setFix x).schedErr = s.schedErr := rfl
@[simp] theorem setFix_schedErrCode (s : State) (x : FixRegs) : (s.setFix x).schedErrCode = s.schedErrCode := rfl
@[simp] theorem setFix_codec (s : State) (x : FixRegs) : (s.setFix x).codec = s.codec := rfl
@[simp] theorem setFix_wenc (s : State) (x : FixRegs) : (s.setFix x).wenc = s.wenc := rfl
@[simp] theorem setFix_scfg (s : State) (x : FixRegs) : (s.setFix x).scfg = s.scfg := rfl
@[simp] theorem setFix_fix (s : State) (x : FixRegs) : (s.setFix x).fix = x := rfl
@[simp] theorem setFix_sns (s : State) (x : FixRegs) : (s.setFix x).sns = s.sns := rfl
@[simp] theorem setFix_sched (s : State) (x : FixRegs) : (s.setFix x).sched = s.sched := rfl
@[simp] theorem setFix_snap (s : State) (x : FixRegs) : (s.setFix x).snap = s.snap := rfl
@[simp] theorem setFix_txbuf (s : State) (x : FixRegs) : (s.setFix x).txbuf = s.txbuf := rfl
@[simp] theorem setFix_trace (s : State) (x : FixRegs) : (s.setFix x).trace = s.trace := rfl
@[simp] theorem setFix_pending (s : State) (x : FixRegs) : (s.setFix x).pending = s.pending := rfl
@[simp] theorem setFix_reads (s : State) (x : FixRegs) : (s.setFix x).reads = s.reads := rfl
@[simp] theorem setFix_inReset (s : State) (x : FixRegs) : (s.setFix x).inReset = s.inReset := rfl

/-! ### setSns -/

@[simp] theorem setSns_lastErr (s : State) (x : SnsRegs) : (s.setSns x).lastErr = s.lastErr := rfl
@[simp] theorem setSns_accessErr (s : State) (x : SnsRegs) : (s.setSns x).accessErr = s.accessErr := rfl
@[simp] theorem setSns_schedErr (s : State) (x : SnsRegs) : (s.setSns x).schedErr = s.schedErr := rfl
@[simp] theorem setSns_schedErrCode (s : State) (x : SnsRegs) : (s.setSns x).schedErrCode = s.schedErrCode := rfl
@[simp] theorem setSns_codec (s : State) (x : SnsRegs) : (s.setSns x).codec = s.codec := rfl
@[simp] theorem setSns_wenc (s : State) (x : SnsRegs) : (s.setSns x).wenc = s.wenc := rfl
@[simp] theorem setSns_scfg (s : State) (x : SnsRegs) : (s.setSns x).scfg = s.scfg := rfl
@[simp] theorem setSns_fix (s : State) (x : SnsRegs) : (s.setSns x).fix = s.fix := rfl
@[simp] theorem setSns_sns (s : State) (x : SnsRegs) : (s.setSns x).sns = x := rfl
@[simp] theorem setSns_sched (s : State) (x : SnsRegs) : (s.setSns x).sched = s.sched := rfl
@[simp] theorem setSns_snap (s : State) (x : SnsRegs) : (s.setSns x).snap = s.snap := rfl
@[simp] theorem setSns_txbuf (s : State) (x : SnsRegs) : (s.setSns x).txbuf = s.txbuf := rfl
@[simp] theorem setSns_trace (s : State) (x : SnsRegs) : (s.setSns x).trace = s.trace := rfl
@[simp] theorem setSns_pending (s : State) (x : SnsRegs) : (s.setSns x).pending = s.pending := rfl
@[simp] theorem setSns_reads (s : State) (x : SnsRegs) : (s.setSns x).reads = s.reads := rfl
@[simp] theorem setSns_inReset (s : State) (x : SnsRegs) : (s.setSns x).inReset = s.inReset := rfl

/-! ### setSched -/

@[simp] theorem setSched_lastErr (s : State) (x : SchedRegs) : (s.setSched x).lastErr = s.lastErr := rfl
@[simp] theorem setSched_accessErr (s : State) (x : SchedRegs) : (s.setSched x).accessErr = s.accessErr := rfl
@[simp] theorem setSched_schedErr (s : State) (x : SchedRegs) : (s.setSched x).schedErr = s.schedErr := rfl
@[simp] theorem setSched_schedErrCode (s : State) (x : SchedRegs) : (s.setSched x).schedErrCode = s.schedErrCode := rfl
@[simp] theorem setSched_codec (s : State) (x : SchedRegs) : (s.setSched x).codec = s.codec := rfl
@[simp] theorem setSched_wenc (s : State) (x : SchedRegs) : (s.setSched x).wenc = s.wenc := rfl
@[simp] theorem setSched_scfg (s : State) (x : SchedRegs) : (s.setSched x).scfg = s.scfg := rfl
@[simp] theorem setSched_fix (s : State) (x : SchedRegs) : (s.setSched x).fix = s.fix := rfl
@[simp] theorem setSched_sns (s : State) (x : SchedRegs) : (s.setSched x).sns = s.sns := rfl
@[simp] theorem setSched_sched (s : State) (x : SchedRegs) : (s.setSched x).sched = x := rfl
@[simp] theorem setSched_snap (s : State) (x : SchedRegs) : (s.setSched x).snap = s.snap := rfl
@[simp] theorem setSched_txbuf (s : State) (x : SchedRegs) : (s.setSched x).txbuf = s.txbuf := rfl
@[simp] theorem setSched_trace (s : State) (x : SchedRegs) : (s.setSched x).trace = s.trace := rfl
@[simp] theorem setSched_pending (s : State) (x : SchedRegs) : (s.setSched x).pending = s.pending := rfl
@[simp] theorem setSched_reads (s : State) (x : SchedRegs) : (s.setSched x).reads = s.reads := rfl
@[simp] theorem setSched_inReset (s : State) (x : SchedRegs) : (s.setSched x).inReset = s.inReset := rfl

/-! ### setSnap -/

@[simp] theorem setSnap_lastErr (s : State) (x : Snapshot) : (s.setSnap x).lastErr = s.lastErr := rfl
@[simp] theorem setSnap_accessErr (s : State) (x : Snapshot) : (s.setSnap x).accessErr = s.accessErr := rfl
@[simp] theorem setSnap_schedErr (s : State) (x : Snapshot) : (s.setSnap x).schedErr = s.schedErr := rfl
@[simp] theorem setSnap_schedErrCode (s : State) (x : Snapshot) : (s.setSnap x).schedErrCode = s.schedErrCode := rfl
@[simp] theorem setSnap_codec (s : State) (x : Snapshot) : (s.setSnap x).codec = s.codec := rfl
@[simp] theorem setSnap_wenc (s : State) (x : Snapshot) : (s.setSnap x).wenc = s.wenc := rfl
@[simp] theorem setSnap_scfg (s : State) (x : Snapshot) : (s.setSnap x).scfg = s.scfg := rfl
@[simp] theorem setSnap_fix (s : State) (x : Snapshot) : (s.setSnap x).fix = s.fix := rfl
@[simp] theorem setSnap_sns (s : State) (x : Snapshot) : (s.setSnap x).sns = s.sns := rfl
@[simp] theorem setSnap_sched (s : State) (x : Snapshot) : (s.setSnap x).sched = s.sched := rfl
@[simp] theorem setSnap_snap (s : State) (x : Snapshot) : (s.setSnap x).snap = x := rfl
@[simp] theorem setSnap_txbuf (s : State) (x : Snapshot) : (s.setSnap x).txbuf = s.txbuf := rfl
@[simp] theorem setSnap_trace (s : State) (x : Snapshot) : (s.setSnap x).trace = s.trace := rfl
@[simp] theorem setSnap_pending (s : State) (x : Snapshot) : (s.setSnap x).pending = s.pending := rfl
@[simp] theorem setSnap_reads (s : State) (x : Snapshot) : (s.setSnap x).reads = s.reads := rfl
@[simp] theorem setSnap_inReset (s : State) (x : Snapshot) : (s.setSnap x).inReset = s.inReset := rfl

/-! ### setTxbuf -/

@[simp] theorem setTxbuf_lastErr (s : State) (x : BitVec 324) : (s.setTxbuf x).lastErr = s.lastErr := rfl
@[simp] theorem setTxbuf_accessErr (s : State) (x : BitVec 324) : (s.setTxbuf x).accessErr = s.accessErr := rfl
@[simp] theorem setTxbuf_schedErr (s : State) (x : BitVec 324) : (s.setTxbuf x).schedErr = s.schedErr := rfl
@[simp] theorem setTxbuf_schedErrCode (s : State) (x : BitVec 324) : (s.setTxbuf x).schedErrCode = s.schedErrCode := rfl
@[simp] theorem setTxbuf_codec (s : State) (x : BitVec 324) : (s.setTxbuf x).codec = s.codec := rfl
@[simp] theorem setTxbuf_wenc (s : State) (x : BitVec 324) : (s.setTxbuf x).wenc = s.wenc := rfl
@[simp] theorem setTxbuf_scfg (s : State) (x : BitVec 324) : (s.setTxbuf x).scfg = s.scfg := rfl
@[simp] theorem setTxbuf_fix (s : State) (x : BitVec 324) : (s.setTxbuf x).fix = s.fix := rfl
@[simp] theorem setTxbuf_sns (s : State) (x : BitVec 324) : (s.setTxbuf x).sns = s.sns := rfl
@[simp] theorem setTxbuf_sched (s : State) (x : BitVec 324) : (s.setTxbuf x).sched = s.sched := rfl
@[simp] theorem setTxbuf_snap (s : State) (x : BitVec 324) : (s.setTxbuf x).snap = s.snap := rfl
@[simp] theorem setTxbuf_txbuf (s : State) (x : BitVec 324) : (s.setTxbuf x).txbuf = x := rfl
@[simp] theorem setTxbuf_trace (s : State) (x : BitVec 324) : (s.setTxbuf x).trace = s.trace := rfl
@[simp] theorem setTxbuf_pending (s : State) (x : BitVec 324) : (s.setTxbuf x).pending = s.pending := rfl
@[simp] theorem setTxbuf_reads (s : State) (x : BitVec 324) : (s.setTxbuf x).reads = s.reads := rfl
@[simp] theorem setTxbuf_inReset (s : State) (x : BitVec 324) : (s.setTxbuf x).inReset = s.inReset := rfl

/-! ### setTrace -/

@[simp] theorem setTrace_lastErr (s : State) (x : List Event) : (s.setTrace x).lastErr = s.lastErr := rfl
@[simp] theorem setTrace_accessErr (s : State) (x : List Event) : (s.setTrace x).accessErr = s.accessErr := rfl
@[simp] theorem setTrace_schedErr (s : State) (x : List Event) : (s.setTrace x).schedErr = s.schedErr := rfl
@[simp] theorem setTrace_schedErrCode (s : State) (x : List Event) : (s.setTrace x).schedErrCode = s.schedErrCode := rfl
@[simp] theorem setTrace_codec (s : State) (x : List Event) : (s.setTrace x).codec = s.codec := rfl
@[simp] theorem setTrace_wenc (s : State) (x : List Event) : (s.setTrace x).wenc = s.wenc := rfl
@[simp] theorem setTrace_scfg (s : State) (x : List Event) : (s.setTrace x).scfg = s.scfg := rfl
@[simp] theorem setTrace_fix (s : State) (x : List Event) : (s.setTrace x).fix = s.fix := rfl
@[simp] theorem setTrace_sns (s : State) (x : List Event) : (s.setTrace x).sns = s.sns := rfl
@[simp] theorem setTrace_sched (s : State) (x : List Event) : (s.setTrace x).sched = s.sched := rfl
@[simp] theorem setTrace_snap (s : State) (x : List Event) : (s.setTrace x).snap = s.snap := rfl
@[simp] theorem setTrace_txbuf (s : State) (x : List Event) : (s.setTrace x).txbuf = s.txbuf := rfl
@[simp] theorem setTrace_trace (s : State) (x : List Event) : (s.setTrace x).trace = x := rfl
@[simp] theorem setTrace_pending (s : State) (x : List Event) : (s.setTrace x).pending = s.pending := rfl
@[simp] theorem setTrace_reads (s : State) (x : List Event) : (s.setTrace x).reads = s.reads := rfl
@[simp] theorem setTrace_inReset (s : State) (x : List Event) : (s.setTrace x).inReset = s.inReset := rfl

/-! ### setPending -/

@[simp] theorem setPending_lastErr (s : State) (x : List Input) : (s.setPending x).lastErr = s.lastErr := rfl
@[simp] theorem setPending_accessErr (s : State) (x : List Input) : (s.setPending x).accessErr = s.accessErr := rfl
@[simp] theorem setPending_schedErr (s : State) (x : List Input) : (s.setPending x).schedErr = s.schedErr := rfl
@[simp] theorem setPending_schedErrCode (s : State) (x : List Input) : (s.setPending x).schedErrCode = s.schedErrCode := rfl
@[simp] theorem setPending_codec (s : State) (x : List Input) : (s.setPending x).codec = s.codec := rfl
@[simp] theorem setPending_wenc (s : State) (x : List Input) : (s.setPending x).wenc = s.wenc := rfl
@[simp] theorem setPending_scfg (s : State) (x : List Input) : (s.setPending x).scfg = s.scfg := rfl
@[simp] theorem setPending_fix (s : State) (x : List Input) : (s.setPending x).fix = s.fix := rfl
@[simp] theorem setPending_sns (s : State) (x : List Input) : (s.setPending x).sns = s.sns := rfl
@[simp] theorem setPending_sched (s : State) (x : List Input) : (s.setPending x).sched = s.sched := rfl
@[simp] theorem setPending_snap (s : State) (x : List Input) : (s.setPending x).snap = s.snap := rfl
@[simp] theorem setPending_txbuf (s : State) (x : List Input) : (s.setPending x).txbuf = s.txbuf := rfl
@[simp] theorem setPending_trace (s : State) (x : List Input) : (s.setPending x).trace = s.trace := rfl
@[simp] theorem setPending_pending (s : State) (x : List Input) : (s.setPending x).pending = x := rfl
@[simp] theorem setPending_reads (s : State) (x : List Input) : (s.setPending x).reads = s.reads := rfl
@[simp] theorem setPending_inReset (s : State) (x : List Input) : (s.setPending x).inReset = s.inReset := rfl

/-! ### setReads -/

@[simp] theorem setReads_lastErr (s : State) (x : List Word) : (s.setReads x).lastErr = s.lastErr := rfl
@[simp] theorem setReads_accessErr (s : State) (x : List Word) : (s.setReads x).accessErr = s.accessErr := rfl
@[simp] theorem setReads_schedErr (s : State) (x : List Word) : (s.setReads x).schedErr = s.schedErr := rfl
@[simp] theorem setReads_schedErrCode (s : State) (x : List Word) : (s.setReads x).schedErrCode = s.schedErrCode := rfl
@[simp] theorem setReads_codec (s : State) (x : List Word) : (s.setReads x).codec = s.codec := rfl
@[simp] theorem setReads_wenc (s : State) (x : List Word) : (s.setReads x).wenc = s.wenc := rfl
@[simp] theorem setReads_scfg (s : State) (x : List Word) : (s.setReads x).scfg = s.scfg := rfl
@[simp] theorem setReads_fix (s : State) (x : List Word) : (s.setReads x).fix = s.fix := rfl
@[simp] theorem setReads_sns (s : State) (x : List Word) : (s.setReads x).sns = s.sns := rfl
@[simp] theorem setReads_sched (s : State) (x : List Word) : (s.setReads x).sched = s.sched := rfl
@[simp] theorem setReads_snap (s : State) (x : List Word) : (s.setReads x).snap = s.snap := rfl
@[simp] theorem setReads_txbuf (s : State) (x : List Word) : (s.setReads x).txbuf = s.txbuf := rfl
@[simp] theorem setReads_trace (s : State) (x : List Word) : (s.setReads x).trace = s.trace := rfl
@[simp] theorem setReads_pending (s : State) (x : List Word) : (s.setReads x).pending = s.pending := rfl
@[simp] theorem setReads_reads (s : State) (x : List Word) : (s.setReads x).reads = x := rfl
@[simp] theorem setReads_inReset (s : State) (x : List Word) : (s.setReads x).inReset = s.inReset := rfl

/-! ### setInReset -/

@[simp] theorem setInReset_lastErr (s : State) (x : Bool) : (s.setInReset x).lastErr = s.lastErr := rfl
@[simp] theorem setInReset_accessErr (s : State) (x : Bool) : (s.setInReset x).accessErr = s.accessErr := rfl
@[simp] theorem setInReset_schedErr (s : State) (x : Bool) : (s.setInReset x).schedErr = s.schedErr := rfl
@[simp] theorem setInReset_schedErrCode (s : State) (x : Bool) : (s.setInReset x).schedErrCode = s.schedErrCode := rfl
@[simp] theorem setInReset_codec (s : State) (x : Bool) : (s.setInReset x).codec = s.codec := rfl
@[simp] theorem setInReset_wenc (s : State) (x : Bool) : (s.setInReset x).wenc = s.wenc := rfl
@[simp] theorem setInReset_scfg (s : State) (x : Bool) : (s.setInReset x).scfg = s.scfg := rfl
@[simp] theorem setInReset_fix (s : State) (x : Bool) : (s.setInReset x).fix = s.fix := rfl
@[simp] theorem setInReset_sns (s : State) (x : Bool) : (s.setInReset x).sns = s.sns := rfl
@[simp] theorem setInReset_sched (s : State) (x : Bool) : (s.setInReset x).sched = s.sched := rfl
@[simp] theorem setInReset_snap (s : State) (x : Bool) : (s.setInReset x).snap = s.snap := rfl
@[simp] theorem setInReset_txbuf (s : State) (x : Bool) : (s.setInReset x).txbuf = s.txbuf := rfl
@[simp] theorem setInReset_trace (s : State) (x : Bool) : (s.setInReset x).trace = s.trace := rfl
@[simp] theorem setInReset_pending (s : State) (x : Bool) : (s.setInReset x).pending = s.pending := rfl
@[simp] theorem setInReset_reads (s : State) (x : Bool) : (s.setInReset x).reads = s.reads := rfl
@[simp] theorem setInReset_inReset (s : State) (x : Bool) : (s.setInReset x).inReset = x := rfl

/-! ### emit -/

@[simp] theorem emit_lastErr (s : State) (e : Event) : (s.emit e).lastErr = s.lastErr := rfl
@[simp] theorem emit_accessErr (s : State) (e : Event) : (s.emit e).accessErr = s.accessErr := rfl
@[simp] theorem emit_schedErr (s : State) (e : Event) : (s.emit e).schedErr = s.schedErr := rfl
@[simp] theorem emit_schedErrCode (s : State) (e : Event) : (s.emit e).schedErrCode = s.schedErrCode := rfl
@[simp] theorem emit_codec (s : State) (e : Event) : (s.emit e).codec = s.codec := rfl
@[simp] theorem emit_wenc (s : State) (e : Event) : (s.emit e).wenc = s.wenc := rfl
@[simp] theorem emit_scfg (s : State) (e : Event) : (s.emit e).scfg = s.scfg := rfl
@[simp] theorem emit_fix (s : State) (e : Event) : (s.emit e).fix = s.fix := rfl
@[simp] theorem emit_sns (s : State) (e : Event) : (s.emit e).sns = s.sns := rfl
@[simp] theorem emit_sched (s : State) (e : Event) : (s.emit e).sched = s.sched := rfl
@[simp] theorem emit_snap (s : State) (e : Event) : (s.emit e).snap = s.snap := rfl
@[simp] theorem emit_txbuf (s : State) (e : Event) : (s.emit e).txbuf = s.txbuf := rfl
@[simp] theorem emit_trace (s : State) (e : Event) : (s.emit e).trace = s.trace ++ [e] := rfl
@[simp] theorem emit_pending (s : State) (e : Event) : (s.emit e).pending = s.pending := rfl
@[simp] theorem emit_reads (s : State) (e : Event) : (s.emit e).reads = s.reads := rfl
@[simp] theorem emit_inReset (s : State) (e : Event) : (s.emit e).inReset = s.inReset := rfl

/-- Two states are equal when their fields are: the shape in which result statements are proved. -/
theorem eq_of_fields {s t : State} (h1 : s.lastErr = t.lastErr) (h2 : s.accessErr = t.accessErr) (h3 : s.schedErr = t.schedErr)
    (h4 : s.schedErrCode = t.schedErrCode) (h5 : s.codec = t.codec) (h6 : s.wenc = t.wenc) (h7 : s.scfg = t.scfg)
    (h8 : s.fix = t.fix) (h9 : s.sns = t.sns) (h10 : s.sched = t.sched) (h11 : s.snap = t.snap) (h12 : s.txbuf = t.txbuf)
    (h13 : s.trace = t.trace) (h14 : s.pending = t.pending) (h15 : s.reads = t.reads) (h16 : s.inReset = t.inReset) : s = t := by
  cases s; cases t; simp_all

end Sys2Proof.Machine.State
end

