-- ==== Sys2Proof/Laws/Ops.lean ====
section
/-! SUPPORT. Laws of the shared operations of Machine/Ops.lean: what ending a command does, which register stands at which offset,
and what each update leaves a register reading. -/

namespace Sys2Proof.Machine

/-! ### Ending a command -/

/-- A command ends in the state its unit answered with LAST_ERR 0, or in the old state with LAST_ERR the code
(60_exceptions.md R311, R312). -/
theorem complete_cases (s : State) (r : Except Err State) :
    (∃ t, r = .ok t ∧ complete s r = t.setLastErr none) ∨ (∃ e, r = .error e ∧ complete s r = s.setLastErr (some e)) := by
  cases r with
  | ok t => exact .inl ⟨t, rfl, rfl⟩
  | error e => exact .inr ⟨e, rfl, rfl⟩

/-! ### Events and levels -/

/-- What driving RF_ENABLE does: the level and one event (43_scheduler.md R289). -/
theorem driveRf_eq (b : Bool) (s : State) :
    driveRf b s = (s.setSched { s.sched with rfOn := b }).setTrace (s.trace ++ [.rfEnable b]) := rfl

/-- What driving TONE_CLOCK does: the level and one event (43_scheduler.md R289). -/
theorem driveToneClock_eq (b : Bool) (s : State) :
    driveToneClock b s = (s.setSched { s.sched with toneRun := b }).setTrace (s.trace ++ [.toneClock b]) := rfl

/-! ### Offsets -/

/-- Every register stands at its own offset (10_state.md section 1). -/
theorem regAt_regOffset (r : Reg) : regAt (regOffset r) = some r := by
  cases r
  case fecbuf w => revert w; decide
  case ilvbuf w => revert w; decide
  case symbuf w => revert w; decide
  case scfgOff i => revert i; decide
  case txbuf w => revert w; decide
  all_goals decide

/-- The register found at an offset has that offset (10_state.md section 1). -/
theorem regOffset_of_regAt {off : Offset} {r : Reg} (h : regAt off = some r) : regOffset r = off := by
  simpa using List.find?_some h

/-- An offset holds no register exactly when it is no register's offset (20_memory.md R74). -/
theorem regAt_none_iff (off : Offset) : regAt off = none ↔ ∀ r, regOffset r ≠ off := by
  constructor
  · intro h r hr
    rw [← hr, regAt_regOffset] at h
    cases h
  · intro h
    cases hr : regAt off with
    | none => rfl
    | some r => exact absurd (regOffset_of_regAt hr) (h r)

/-- Two registers never share an offset (10_state.md section 1). -/
theorem regOffset_injective {r q : Reg} (h : regOffset r = regOffset q) : r = q := by
  have := regAt_regOffset r
  rw [h, regAt_regOffset] at this
  exact (Option.some.inj this).symm

/-- Every register's offset is a multiple of 4 (10_state.md R20). -/
theorem accessAligned_regOffset (r : Reg) : accessAligned (regOffset r) 4 = true := by
  cases r
  case fecbuf w => revert w; decide
  case ilvbuf w => revert w; decide
  case symbuf w => revert w; decide
  case scfgOff i => revert i; decide
  case txbuf w => revert w; decide
  all_goals decide

/-! ### What an update leaves a register reading -/

@[simp] theorem readReg_setPending (r : Reg) (s : State) (x : List Input) : readReg r (s.setPending x) = readReg r s := by
  cases r <;> rfl

@[simp] theorem readReg_setReads (r : Reg) (s : State) (x : List Word) : readReg r (s.setReads x) = readReg r s := by
  cases r <;> rfl

@[simp] theorem readReg_setInReset (r : Reg) (s : State) (x : Bool) : readReg r (s.setInReset x) = readReg r s := by
  cases r <;> rfl

@[simp] theorem readReg_setTrace (r : Reg) (s : State) (x : List Event) : readReg r (s.setTrace x) = readReg r s := by
  cases r <;> rfl

@[simp] theorem readReg_emit (r : Reg) (s : State) (e : Event) : readReg r (s.emit e) = readReg r s := by
  cases r <;> rfl

/-- LAST_ERR shows in STATUS only. -/
theorem readReg_setLastErr {r : Reg} (h : r ≠ .status) (s : State) (x : Option Err) :
    readReg r (s.setLastErr x) = readReg r s := by
  cases r <;> first | rfl | exact absurd rfl h

/-- ACCESS_ERR shows in STATUS only. -/
theorem readReg_setAccessErr {r : Reg} (h : r ≠ .status) (s : State) (x : Bool) :
    readReg r (s.setAccessErr x) = readReg r s := by
  cases r <;> first | rfl | exact absurd rfl h

/-- SCHED_ERR shows in STATUS only. -/
theorem readReg_setSchedErr {r : Reg} (h : r ≠ .status) (s : State) (x : Bool) :
    readReg r (s.setSchedErr x) = readReg r s := by
  cases r <;> first | rfl | exact absurd rfl h

/-- SCHED_ERR_CODE shows in STATUS only. -/
theorem readReg_setSchedErrCode {r : Reg} (h : r ≠ .status) (s : State) (x : Option Err) :
    readReg r (s.setSchedErrCode x) = readReg r s := by
  cases r <;> first | rfl | exact absurd rfl h

/-- The codec registers show in their own names only. -/
theorem readReg_setCodec {r : Reg} (h : r ∉ codecRegNames) (s : State) (x : CodecRegs) :
    readReg r (s.setCodec x) = readReg r s := by
  cases r <;> first | rfl | exact absurd (by simp [codecRegNames]) h

/-- The WENC registers show in their own names only. -/
theorem readReg_setWenc {r : Reg} (h : r ∉ wencRegNames) (s : State) (x : WencRegs) :
    readReg r (s.setWenc x) = readReg r s := by
  cases r <;> first | rfl | exact absurd (by simp [wencRegNames]) h

/-- The configuration shows in its own names and in STATUS.CFG_ERR only. -/
theorem readReg_setScfg {r : Reg} (h : r ∉ scfgRegNames) (hs : r ≠ .status) (s : State) (x : ScfgRegs) :
    readReg r (s.setScfg x) = readReg r s := by
  cases r <;> first | rfl | exact absurd rfl hs | exact absurd (by simp [scfgRegNames]) h

/-- The fix record shows in its own names only. -/
theorem readReg_setFix {r : Reg} (h : r ∉ recordRegNames) (s : State) (x : FixRegs) :
    readReg r (s.setFix x) = readReg r s := by
  cases r <;> first | rfl | exact absurd (by simp [recordRegNames]) h

/-- The sensor record shows in its own names only. -/
theorem readReg_setSns {r : Reg} (h : r ∉ recordRegNames) (s : State) (x : SnsRegs) :
    readReg r (s.setSns x) = readReg r s := by
  cases r <;> first | rfl | exact absurd (by simp [recordRegNames]) h

/-- The scheduler status shows in its own names only. -/
theorem readReg_setSched {r : Reg} (h : r ∉ schedRegNames) (s : State) (x : SchedRegs) :
    readReg r (s.setSched x) = readReg r s := by
  cases r <;> first | rfl | exact absurd (by simp [schedRegNames]) h

/-- The snapshot shows in its own names only. -/
theorem readReg_setSnap {r : Reg} (h : r ∉ schedRegNames) (s : State) (x : Snapshot) :
    readReg r (s.setSnap x) = readReg r s := by
  cases r <;> first | rfl | exact absurd (by simp [schedRegNames]) h

/-- TXBUF shows in its own names only. -/
theorem readReg_setTxbuf {r : Reg} (h : r ∉ schedRegNames) (s : State) (x : BitVec 324) :
    readReg r (s.setTxbuf x) = readReg r s := by
  cases r <;> first | rfl | exact absurd (by simp [schedRegNames]) h

/-! ### Storing to a register -/

/-- The parts of the state a store never touches: LAST_ERR, SCHED_ERR_CODE, the scheduler's and the WENC unit's registers, the trace
and the interface (20_memory.md R71). -/
theorem storeReg_frame (r : Reg) (v : Word) (s : State) :
    (storeReg r v s).lastErr = s.lastErr ∧ (storeReg r v s).schedErrCode = s.schedErrCode ∧ (storeReg r v s).wenc = s.wenc ∧
    (storeReg r v s).sched = s.sched ∧ (storeReg r v s).snap = s.snap ∧ (storeReg r v s).txbuf = s.txbuf ∧
    (storeReg r v s).trace = s.trace ∧ (storeReg r v s).pending = s.pending ∧ (storeReg r v s).reads = s.reads ∧
    (storeReg r v s).inReset = s.inReset := by
  cases r <;> exact ⟨rfl, rfl, rfl, rfl, rfl, rfl, rfl, rfl, rfl, rfl⟩

/-- Only a store to a register of access L changes the configuration (10_state.md R42 to R48). -/
theorem storeReg_scfg {r : Reg} (h : regAccess r ≠ .locked) (v : Word) (s : State) : (storeReg r v s).scfg = s.scfg := by
  cases r <;> first | rfl | exact absurd rfl h

end Sys2Proof.Machine
end

