-- ==== Sys2Proof/Laws/Bus.lean ====
section
/-! SUPPORT. Laws of the bus and of one step: what a command write, a pin edge and a register access do, and the inversion law of
`step`, from which every invariant is proved. -/

namespace Sys2Proof.Machine

/-! ### Commands -/

/-- CMD stands at its offset, aligned (10_state.md R23). -/
theorem regAt_cmdOffset : regAt cmdOffset = some .cmd := regAt_regOffset .cmd

/-- With `rst` released, a command word written to CMD runs (30_encoding.md R90). -/
theorem deliver_commandInput {s : State} (hr : s.inReset = false) (w : Word) :
    deliver (commandInput w) s = runCommandWord w s := by
  simp only [deliver, hr, commandInput, acceptInput, memWrite, regAt_cmdOffset, writeRegister, regAccess]
  rfl

/-- Every command answers a next state (60_exceptions.md R318). -/
theorem exec_next (i : Instr) (s : State) : ∃ t, exec i s = .next t := by
  cases i <;> simp only [exec] <;> first | exact ⟨_, rfl⟩ | skip
  unfold execSchedTick
  cases s.sched.state <;> exact ⟨_, rfl⟩

/-! ### One step -/

/-- With no input pending nothing happens. -/
theorem step_nil {s : State} (h : s.pending = []) : step s = .next s := by simp [step, serve, h]

/-- A step delivers the next input to the state without it. -/
theorem step_cons {s : State} {i : Input} {rest : List Input} (h : s.pending = i :: rest) :
    step s = deliver i (s.setPending rest) := by simp [step, serve, h]

/-- Everything one input can do while `rst` is released (20_memory.md R71 to R74, 30_encoding.md R90 to R101). -/
inductive InputEffect (s : State) : State → Prop where
  /-- A command: a word written to CMD that selects one, or a pin edge. -/
  | command (i : Instr) {t : State} (h : exec i s = .next t) : InputEffect s t
  /-- A word written to CMD that selects none. -/
  | illegal : InputEffect s (raiseError .illegalCommand s)
  /-- A write that stores: to an RW register, to STATUS, or to an SCFG register in Init. -/
  | store (r : Reg) (v : Word) (h : regAccess r = .rw ∨ regAccess r = .w1c ∨ regAccess r = .locked ∧ s.sched.state = .init) :
      InputEffect s (storeReg r v s)
  /-- A write that is an access error. -/
  | badWrite : InputEffect s (accessError s)
  /-- A read of a register. -/
  | read (r : Reg) : InputEffect s (returnValue (readReg r s) s)
  /-- A read that is an access error. -/
  | badRead : InputEffect s (returnValue 0 (accessError s))
  /-- `rst` is asserted. -/
  | reset : InputEffect s (hardReset true s)
  /-- `rst` is released while it is released already. -/
  | noReset : InputEffect s s

/-- An input accepted with `rst` released answers a next state, and it is one of the listed effects. -/
theorem acceptInput_effect (i : Input) (s : State) : ∃ t, acceptInput i s = .next t ∧ InputEffect s t := by
  cases i with
  | read off width =>
    refine ⟨_, rfl, ?_⟩
    unfold memRead
    split
    · split
      · exact .read _
      · exact .badRead
    · exact .badRead
  | write off width v =>
    unfold acceptInput memWrite
    dsimp only
    split
    · split
      · rename_i r hr
        unfold writeRegister
        cases ha : regAccess r with
        | rw => exact ⟨_, rfl, .store r v (.inl ha)⟩
        | w1c => exact ⟨_, rfl, .store r v (.inr (.inl ha))⟩
        | ro => exact ⟨_, rfl, .badWrite⟩
        | locked =>
          by_cases hi : s.sched.state = .init
          · exact ⟨_, by simp only [hi, if_true], .store r v (.inr (.inr ⟨ha, hi⟩))⟩
          · exact ⟨_, by simp only [hi, if_false], .badWrite⟩
        | wo =>
          simp only [runCommandWord]
          cases hd : decode v with
          | ok i =>
            obtain ⟨t, ht⟩ := exec_next i s
            exact ⟨t, ht, .command i ht⟩
          | error e => exact ⟨_, rfl, .illegal⟩
      · exact ⟨_, rfl, .badWrite⟩
    · exact ⟨_, rfl, .badWrite⟩
  | ppsIn =>
    obtain ⟨t, ht⟩ := exec_next .ppsEdge s
    exact ⟨t, ht, .command _ ht⟩
  | toneTickIn =>
    obtain ⟨t, ht⟩ := exec_next .toneTick s
    exact ⟨t, ht, .command _ ht⟩
  | rst asserted =>
    cases asserted with
    | true => exact ⟨_, rfl, .reset⟩
    | false => exact ⟨_, rfl, .noReset⟩

/-- Everything one step can do (20_memory.md R80, 70_reset_and_hazards.md R340). -/
inductive StepEffect (s : State) : State → Prop where
  /-- No input is pending. -/
  | idle (h : s.pending = []) : StepEffect s s
  /-- `rst` is asserted and stays so: the input is lost. -/
  | held (i : Input) (rest : List Input) (h : s.pending = i :: rest) (hr : s.inReset = true) (hi : i ≠ .rst false) :
      StepEffect s (s.setPending rest)
  /-- `rst` is released. -/
  | release (rest : List Input) (h : s.pending = .rst false :: rest) (hr : s.inReset = true) :
      StepEffect s (hardReset false (s.setPending rest))
  /-- An input takes effect. -/
  | input (i : Input) (rest : List Input) (h : s.pending = i :: rest) (hr : s.inReset = false) {t : State}
      (ha : acceptInput i (s.setPending rest) = .next t) (he : InputEffect (s.setPending rest) t) : StepEffect s t

/-- A step answers a next state, and it is one of the listed effects. -/
theorem step_effect (s : State) : ∃ t, step s = .next t ∧ StepEffect s t := by
  cases h : s.pending with
  | nil => exact ⟨s, step_nil h, .idle h⟩
  | cons i rest =>
    rw [step_cons h]
    cases hr : s.inReset with
    | true =>
      have hd : deliver i (s.setPending rest) = .next (inputInReset i (s.setPending rest)) := by
        simp [deliver, hr]
      by_cases hi : i = .rst false
      · subst hi
        exact ⟨_, hd, .release rest h hr⟩
      · have : inputInReset i (s.setPending rest) = s.setPending rest := by
          cases i with
          | rst b => cases b with
            | true => rfl
            | false => exact absurd rfl hi
          | _ => rfl
        exact ⟨_, by rw [hd, this], .held i rest h hr hi⟩
    | false =>
      obtain ⟨t, ht, he⟩ := acceptInput_effect i (s.setPending rest)
      exact ⟨t, by simpa [deliver, hr] using ht, .input i rest h hr ht he⟩

/-! ### Aligned accesses to a register -/

/-- An aligned write to a register goes by the register's access code (10_state.md R20). -/
theorem memWrite_regOffset (r : Reg) (v : Word) (s : State) : memWrite (regOffset r) 4 v s = writeRegister r v s := by
  simp [memWrite, accessAligned_regOffset, regAt_regOffset]

/-- An aligned read of a register returns its value (20_memory.md R71). -/
theorem memRead_regOffset (r : Reg) (s : State) : memRead (regOffset r) 4 s = returnValue (readReg r s) s := by
  simp [memRead, accessAligned_regOffset, regAt_regOffset]

end Sys2Proof.Machine
end

