-- ==== Sys2Proof/Laws/PerInstr.lean ====
section
/-! SUPPORT. Statements per command, about the command as syntax. The family EncodeDecode: the command is well-formed, its word passes
the check that 30_encoding.md R92 gives, decoding the word gives the command back, and the table's numbering of its bits agrees. -/

namespace Sys2Proof.Laws.EncodeDecode

/-- A command and its word (30_encoding.md R90 to R92). -/
def Statement (i : Instr) : Prop :=
  i.wellFormed = true ∧ commandWordWellFormed (encode i) = true ∧ decode (encode i) = .ok i ∧
    decodeTableWord 32 (encode i).toNat = some i

theorem nop : Statement .nop := by unfold Statement; exact ⟨rfl, rfl, rfl, rfl⟩
theorem locate : Statement .locate := by unfold Statement; exact ⟨rfl, rfl, rfl, rfl⟩
theorem wsprEncode : Statement .wsprEncode := by unfold Statement; exact ⟨rfl, rfl, rfl, rfl⟩
theorem u4bEncCall : Statement .u4bEncCall := by unfold Statement; exact ⟨rfl, rfl, rfl, rfl⟩
theorem u4bEncEng : Statement .u4bEncEng := by unfold Statement; exact ⟨rfl, rfl, rfl, rfl⟩
theorem u4bDecCall : Statement .u4bDecCall := by unfold Statement; exact ⟨rfl, rfl, rfl, rfl⟩
theorem u4bDecEng : Statement .u4bDecEng := by unfold Statement; exact ⟨rfl, rfl, rfl, rfl⟩
theorem schedTick : Statement .schedTick := by unfold Statement; exact ⟨rfl, rfl, rfl, rfl⟩
theorem toneTick : Statement .toneTick := by unfold Statement; exact ⟨rfl, rfl, rfl, rfl⟩
theorem ppsEdge : Statement .ppsEdge := by unfold Statement; exact ⟨rfl, rfl, rfl, rfl⟩
theorem schedReset : Statement .schedReset := by unfold Statement; exact ⟨rfl, rfl, rfl, rfl⟩

end Sys2Proof.Laws.EncodeDecode
end

