-- ==== Sys2Proof/Laws/Wspr.lean ====
section
/-! SUPPORT. Laws of the WENC algorithm, one per step: what normalisation answers, the ranges of the packed values, the shape of the
input stream, the register a FEC bit is computed from, where the interleaver puts a bit, what a symbol is. -/

namespace Sys2Proof.Machine

/-! ### Normalisation -/

/-- If normalisation answers a string, it is the padded original, at most six characters before padding, in the legal classes
(41_wspr_encoder.md R142, R143). -/
theorem normalise_ok {orig : List Byte} {n : Str6} (h : normalise orig = .ok n) :
    ∃ k, padCount orig = some k ∧ (List.replicate k chSpace ++ orig).length ≤ 6 ∧
      n = padRight (List.replicate k chSpace ++ orig) ∧ callClassesLegal n = true := by
  unfold normalise at h
  split at h
  · cases h
  · rename_i k hk
    dsimp only at h
    split at h
    · cases h
    · split at h
      · rename_i hlen hc
        cases h
        exact ⟨k, hk, Nat.le_of_not_lt hlen, rfl, hc⟩
      · cases h

/-- Normalisation raises InvalidCallsign and nothing else (41_wspr_encoder.md R142, R143). -/
theorem normalise_error {orig : List Byte} {e : Err} (h : normalise orig = .error e) : e = .invalidCallsign := by
  unfold normalise at h
  split at h
  · cases h; rfl
  · dsimp only at h
    split at h
    · cases h; rfl
    · split at h
      · cases h
      · cases h; rfl

/-- A normalised callsign is in the legal classes (41_wspr_encoder.md R143). -/
theorem classes_of_normalise {orig : List Byte} {n : Str6} (h : normalise orig = .ok n) : callClassesLegal n = true := by
  obtain ⟨_, _, _, _, hc⟩ := normalise_ok h
  exact hc

/-- A six-character string whose character 2 is a digit normalises to itself if it is in the legal classes
(41_wspr_encoder.md R142 with k = 0). -/
theorem normalise_six {s : Str6} (hc : callClassesLegal s = true) : normalise (strChars s) = .ok s := by
  have h2 : isDigit s.c2 = true := by
    simp only [callClassesLegal, Bool.and_eq_true] at hc
    exact hc.1.1.1.2
  have hk : padCount (strChars s) = some 0 := by simp [padCount, strChars, h2]
  have hp : padRight (strChars s) = s := by simp [padRight, strChars]
  unfold normalise
  rw [hk]
  simp [hp, hc]
  simp [strChars]

/-! ### Ranges of the packed values -/

/-- A callsign character's value is at most 36 (41_wspr_encoder.md R144). -/
theorem callVal_le (c : Byte) : callVal c ≤ 36 := by
  by_cases hd : isDigit c = true
  · simp [callVal, hd]; have := digitVal_lt hd; omega
  · by_cases hu : isUpper c = true
    · simp [callVal, hd, hu]; have := upperVal_lt hu; omega
    · simp [callVal, hd, hu]

/-- The value of a digit or letter (41_wspr_encoder.md R143). -/
theorem callVal_le_35 {c : Byte} (h : (isDigit c || isUpper c) = true) : callVal c ≤ 35 := by
  by_cases hd : isDigit c = true
  · simp [callVal, hd]; have := digitVal_lt hd; omega
  · have hu : isUpper c = true := by simpa [hd] using h
    simp [callVal, hd, hu]; have := upperVal_lt hu; omega

/-- The value of a digit (41_wspr_encoder.md R143). -/
theorem callVal_le_9 {c : Byte} (h : isDigit c = true) : callVal c ≤ 9 := by
  simp [callVal, h]; have := digitVal_lt h; omega

/-- The value of a suffix character: a letter 10-35 or a space 36 (41_wspr_encoder.md R143). -/
theorem callVal_suffix {c : Byte} (h : (isUpper c || c == chSpace) = true) : 10 ≤ callVal c ∧ callVal c ≤ 36 := by
  by_cases hs : c = chSpace
  · subst hs; decide
  · have hu : isUpper c = true := by simpa [hs] using h
    have hd : isDigit c = false := by simp [isUpper] at hu; simp [isDigit]; omega
    simp [callVal, hd, hu]; have := upperVal_lt hu; omega

/-- N fits 28 bits (41_wspr_encoder.md R145). -/
theorem packCall_lt {s : Str6} (hc : callClassesLegal s = true) : packCall s < 2 ^ 28 := by
  simp only [callClassesLegal, Bool.and_eq_true] at hc
  obtain ⟨⟨⟨⟨⟨-, h1⟩, h2⟩, h3⟩, h4⟩, h5⟩ := hc
  have v0 := callVal_le s.c0
  have v1 := callVal_le_35 h1
  have v2 := callVal_le_9 h2
  have v3 := callVal_suffix h3
  have v4 := callVal_suffix h4
  have v5 := callVal_suffix h5
  simp only [packCall]
  omega

/-- G fits 15 bits (41_wspr_encoder.md R147). -/
theorem packGrid_lt {g : Word} (h : gridLegal g = true) : packGrid g < 2 ^ 15 := by
  simp only [gridLegal, Bool.and_eq_true] at h
  obtain ⟨⟨⟨h0, h1⟩, h2⟩, h3⟩ := h
  have := upperVal_lt_field h0
  have := upperVal_lt_field h1
  have := digitVal_lt h2
  have := digitVal_lt h3
  simp only [packGrid]
  omega

/-- M fits 22 bits (41_wspr_encoder.md R149). -/
theorem packPower_lt {g : Nat} {p : Byte} (hg : g < 2 ^ 15) (hp : powerLegal p = true) : packPower g p < 2 ^ 22 := by
  simp only [powerLegal, Bool.and_eq_true, decide_eq_true_eq] at hp
  simp only [packPower]
  omega

/-! ### The input stream -/

/-- The payload buffer has 11 bytes (41_wspr_encoder.md R151). -/
@[simp] theorem length_payloadBytes (p : BitVec 56) : (payloadBytes p).length = 11 := by simp [payloadBytes]

/-- The input stream has 81 bits (41_wspr_encoder.md R152). -/
@[simp] theorem length_inputBits (p : BitVec 56) : (inputBits (payloadBytes p)).length = 81 := by
  simp [inputBits, payloadBytes, msbFirst, List.range, List.range.loop, List.replicate]

/-! ### The FEC -/

/-- Two FEC bits leave for each input bit (41_wspr_encoder.md R155). -/
@[simp] theorem length_convolve (r0 r1 : Word) (input : List Bool) : (convolve r0 r1 input).length = 2 * input.length := by
  induction input generalizing r0 r1 with
  | nil => rfl
  | cons b bs ih => simp [convolve, ih]; omega

/-- The FEC register after the first k+1 input bits (41_wspr_encoder.md R153). -/
def fecRegister (r : Word) (input : List Bool) (k : Nat) : Word := (input.take (k + 1)).foldl shiftIn r

/-- FEC bits 2k and 2k+1 are the parities of the registers after input bit k (41_wspr_encoder.md R155). -/
theorem convolve_getElem? (r0 r1 : Word) (input : List Bool) {k : Nat} (hk : k < input.length) :
    (convolve r0 r1 input)[2 * k]? = some (parity (fecRegister r0 input k &&& poly0)) ∧
    (convolve r0 r1 input)[2 * k + 1]? = some (parity (fecRegister r1 input k &&& poly1)) := by
  induction input generalizing r0 r1 k with
  | nil => simp at hk
  | cons b bs ih =>
    cases k with
    | zero => simp [convolve, fecRegister]
    | succ k =>
      have := ih (shiftIn r0 b) (shiftIn r1 b) (k := k) (by simpa using hk)
      simp only [convolve, fecRegister, List.take_succ_cons, List.foldl_cons]
      rw [show 2 * (k + 1) = 2 * k + 1 + 1 by omega, List.getElem?_cons_succ, List.getElem?_cons_succ,
        List.getElem?_cons_succ, List.getElem?_cons_succ]
      exact this

/-- One shift: the new bit enters at the bottom, the others move up (41_wspr_encoder.md R153). -/
theorem getLsbD_shiftIn (r : Word) (b : Bool) (i : Nat) :
    (shiftIn r b).getLsbD i = (decide (i < 32) && if i = 0 then b else r.getLsbD (i - 1)) := by
  cases i with
  | zero => simp [shiftIn]
  | succ i =>
    by_cases h : i + 1 < 32
    · have h' : i < 32 := by omega
      simp [shiftIn, h, BitVec.getLsbD_eq_getElem h']
    · simp [shiftIn, h]

/-! ### The interleaver -/

/-- The slots the counter values `js` fill, in order (41_wspr_encoder.md R157). -/
def slotsOf (js : List Nat) : List Nat := (js.filter fun j => decide (rev8 j < 162)).map rev8

/-- The loop puts FEC bit i + n into the n-th slot of the remaining counter values and leaves every other slot alone
(41_wspr_encoder.md R157). -/
theorem interleaveFrom_getLsbD (fec : BitVec 162) (js : List Nat) (i : Nat) (ilv : BitVec 162) (r : Nat)
    (hn : (slotsOf js).Nodup) (hl : i + (slotsOf js).length ≤ 162) :
    (interleaveFrom fec js i ilv).getLsbD r =
      if r ∈ slotsOf js then fec.getLsbD (i + (slotsOf js).idxOf r) else ilv.getLsbD r := by
  induction js generalizing i ilv with
  | nil => simp [interleaveFrom, slotsOf]
  | cons j js ih =>
    by_cases hj : rev8 j < 162
    · have hs : slotsOf (j :: js) = rev8 j :: slotsOf js := by simp [slotsOf, hj]
      rw [hs] at hn hl ⊢
      have hi : i ≠ 162 := by simp at hl; omega
      rw [interleaveFrom, if_neg hi, if_pos hj, ih _ _ (List.nodup_cons.mp hn).2 (by simp at hl; omega),
        getLsbD_putBit _ _ _ _ hj]
      by_cases hr : r = rev8 j
      · subst hr
        simp [(List.nodup_cons.mp hn).1]
      · have hr' : rev8 j ≠ r := fun h => hr h.symm
        simp only [List.mem_cons, hr, false_or, if_false]
        split
        · rw [List.idxOf_cons_ne _ hr']
          congr 1; omega
        · rfl
    · have hs : slotsOf (j :: js) = slotsOf js := by simp [slotsOf, hj]
      rw [hs] at hn hl ⊢
      rw [interleaveFrom, if_neg hj]
      split
      · have : slotsOf js = [] := by
          apply List.eq_nil_of_length_eq_zero; omega
        simp [this]
      · exact ih _ _ hn hl

/-! ### The symbols -/

/-- Symbol k of the merged message (41_wspr_encoder.md R160). -/
theorem symbolAt_mergeSync (ilv : BitVec 162) {k : Nat} (hk : k < 162) : symbolAt (mergeSync ilv) k = symbol ilv k := by
  apply BitVec.eq_of_getLsbD_eq
  intro i hi
  have h : 2 * k + i < 324 := by omega
  have h1 : (2 * k + i) / 2 = k := by omega
  have h2 : (2 * k + i) % 2 = i := by omega
  rw [getLsbD_symbolAt, mergeSync, getLsbD_bitsOf]
  simp [hi, h, h1, h2]

/-- The bits of a symbol: bit 0 the sync bit, bit 1 the interleaved bit (30_encoding.md R97). -/
theorem getLsbD_symbol (ilv : BitVec 162) (k : Nat) :
    (symbol ilv k).getLsbD 0 = (syncBit k).getLsbD 0 ∧ (symbol ilv k).getLsbD 1 = ilv.getLsbD k := by
  have h : ∀ (x : BitVec 1) (b : Bool), (x.setWidth 2 + 2 * (BitVec.ofBool b).setWidth 2).getLsbD 0 = x.getLsbD 0 ∧
      (x.setWidth 2 + 2 * (BitVec.ofBool b).setWidth 2).getLsbD 1 = b := by decide
  exact h (syncBit k) (ilv.getLsbD k)

/-! ### The whole encoder -/

/-- What the encoder can answer: the results of legal operands, or the first failed check (41_wspr_encoder.md R140). -/
theorem wsprEncode_cases (lo : Word) (hi : BitVec 16) (grid : Word) (power : Byte) :
    (∃ s, normalise (nulTerminated lo hi) = .ok s ∧ gridLegal grid = true ∧ powerLegal power = true ∧
      wsprEncode lo hi grid power = .ok (encodeLegal s grid power)) ∨
    (normalise (nulTerminated lo hi) = .error .invalidCallsign ∧ wsprEncode lo hi grid power = .error .invalidCallsign) ∨
    ((∃ s, normalise (nulTerminated lo hi) = .ok s) ∧ gridLegal grid = false ∧
      wsprEncode lo hi grid power = .error .invalidGrid) ∨
    ((∃ s, normalise (nulTerminated lo hi) = .ok s) ∧ gridLegal grid = true ∧ powerLegal power = false ∧
      wsprEncode lo hi grid power = .error .invalidPower) := by
  unfold wsprEncode
  cases hn : normalise (nulTerminated lo hi) with
  | error e =>
    have := normalise_error hn
    subst this
    simp
  | ok s =>
    cases hg : gridLegal grid with
    | false => simp
    | true => cases hp : powerLegal power <;> simp

/-- Legal operands encode (41_wspr_encoder.md R140). -/
theorem wsprEncode_ok {lo : Word} {hi : BitVec 16} {grid : Word} {power : Byte} {s : Str6}
    (hn : normalise (nulTerminated lo hi) = .ok s) (hg : gridLegal grid = true) (hp : powerLegal power = true) :
    wsprEncode lo hi grid power = .ok (encodeLegal s grid power) := by
  unfold wsprEncode
  rw [hn]
  simp [hg, hp]

end Sys2Proof.Machine
end

