-- ==== Sys2Proof/Laws/Sched.lean ====
section
/-! SUPPORT. Inversion laws of the SCHED unit's commands: everything one SCHED_TICK and one TONE_TICK can do, so that no later proof
unfolds them. -/

namespace Sys2Proof.Machine

/-! ### SCHED_TICK -/

/-- Everything a SCHED_TICK can do, one constructor per row of the transition table (43_scheduler.md R241), per recorded error, and
one for a tick whose conditions fail. -/
inductive TickEffect (s : State) : State → Prop where
  | configInvalid (hs : s.sched.state = .init) (hc : cfgErr s = true) :
      TickEffect s (samplePps s.sched.ppsCount (raiseError .configInvalid (succeed s)))
  | t1 (hs : s.sched.state = .init) (hc : cfgErr s = false) :
      TickEffect s ((succeed s).setSched { s.sched with state := .waitForTime, ppsCount := 0, ppsLast := 0 })
  | t2 (hs : s.sched.state = .waitForTime) (hc : s.sched.ppsCount.toNat + Config.waittimeMargin < s.fix.time.toNat)
      (hsat : 0 < s.fix.sats.toNat) :
      TickEffect s (samplePps s.sched.ppsCount (moveTo .waitForFix (succeed s)))
  | t3 (hs : s.sched.state = .waitForFix) (hc : noFix s.fix = false) :
      TickEffect s (samplePps s.sched.ppsCount (moveTo .collectTelemetry (configureRadioOnce (succeed s))))
  | t4 (m : Message) (hs : s.sched.state = .collectTelemetry) (hb : buildMessage (succeed s) = .ok m) :
      TickEffect s (samplePps s.sched.ppsCount (commitMessage m (succeed s)))
  | buildFailed (e : Err) (hs : s.sched.state = .collectTelemetry) (hb : buildMessage (succeed s) = .error e) :
      TickEffect s (samplePps s.sched.ppsCount (buildFailed e (succeed s)))
  | t5 (hs : s.sched.state = .waitForTransmit) (hc : noFix s.fix = true) :
      TickEffect s (samplePps s.sched.ppsCount
        ((succeed s).setSched { s.sched with state := .waitForFix, msgValid := false }))
  | t6 (hs : s.sched.state = .waitForTransmit) (hf : noFix s.fix = false) (hm : minuteOf s.fix.time % 2 = 1)
      (hsec : secondOf s.fix.time = 59) :
      TickEffect s (samplePps s.sched.ppsCount (moveTo .awaitPps (succeed s)))
  | t7 (hs : s.sched.state = .awaitPps) (hp : s.sched.ppsCount ≠ s.sched.ppsLast) :
      TickEffect s (samplePps s.sched.ppsCount (arm (succeed s)))
  | t8 (hs : s.sched.state = .transmitting) (hc : s.sched.cursor = 162#8) :
      TickEffect s (samplePps s.sched.ppsCount
        ((succeed s).setSched { s.sched with state := .collectTelemetry, msgValid := false }))
  | stay (hi : s.sched.state ≠ .init) (hc : s.sched.state ≠ .collectTelemetry) :
      TickEffect s (samplePps s.sched.ppsCount (succeed s))

/-- A SCHED_TICK answers a next state, and it is one of the listed effects (43_scheduler.md R241, R244). -/
theorem execSchedTick_effect (s : State) : ∃ t, execSchedTick s = .next t ∧ TickEffect s t := by
  cases hs : s.sched.state with
  | init =>
    cases hc : cfgErr s with
    | true => exact ⟨_, by simp only [execSchedTick, hs]; rfl, by
        have : tickInit s.sched.ppsCount (succeed s) = samplePps s.sched.ppsCount (raiseError .configInvalid (succeed s)) := by
          rw [tickInit, show cfgErr (succeed s) = cfgErr s from rfl, hc]; rfl
        rw [this]; exact .configInvalid hs hc⟩
    | false => exact ⟨_, by simp only [execSchedTick, hs]; rfl, by
        have : tickInit s.sched.ppsCount (succeed s) =
            (succeed s).setSched { s.sched with state := .waitForTime, ppsCount := 0, ppsLast := 0 } := by
          rw [tickInit, show cfgErr (succeed s) = cfgErr s from rfl, hc]; rfl
        rw [this]; exact .t1 hs hc⟩
  | waitForTime =>
    refine ⟨_, by simp only [execSchedTick, hs]; rfl, ?_⟩
    unfold tickWaitForTime
    split
    · rename_i h; exact .t2 hs h.1 h.2
    · exact .stay (by simp [hs]) (by simp [hs])
  | waitForFix =>
    refine ⟨_, by simp only [execSchedTick, hs]; rfl, ?_⟩
    unfold tickWaitForFix
    split
    · exact .stay (by simp [hs]) (by simp [hs])
    · rename_i h; exact .t3 hs ((Bool.not_eq_true _).mp h)
  | collectTelemetry =>
    refine ⟨_, by simp only [execSchedTick, hs]; rfl, ?_⟩
    unfold tickCollectTelemetry
    split
    · rename_i m h; exact .t4 m hs h
    · rename_i e h; exact .buildFailed e hs h
  | waitForTransmit =>
    refine ⟨_, by simp only [execSchedTick, hs]; rfl, ?_⟩
    unfold tickWaitForTransmit
    split
    · rename_i h; exact .t5 hs h
    · rename_i hf
      split
      · rename_i h; exact .t6 hs ((Bool.not_eq_true _).mp hf) h.1 h.2
      · exact .stay (by simp [hs]) (by simp [hs])
  | awaitPps =>
    refine ⟨_, by simp only [execSchedTick, hs]; rfl, ?_⟩
    unfold tickAwaitPps
    split
    · rename_i h; exact .t7 hs h
    · exact .stay (by simp [hs]) (by simp [hs])
  | transmitting =>
    refine ⟨_, by simp only [execSchedTick, hs]; rfl, ?_⟩
    unfold tickTransmitting
    split
    · rename_i h; exact .t8 hs h
    · exact .stay (by simp [hs]) (by simp [hs])

/-- A tick samples the PPS counter and changes nothing else. -/
theorem samplePps_eq (p : Word) (s : State) : samplePps p s = s.setSched { s.sched with ppsLast := p } := rfl

/-- A built message is the encoding of its text, and its snapshot is the one its cycle uses (43_scheduler.md R252). -/
theorem buildMessage_ok {s : State} {m : Message} (h : buildMessage s = .ok m) :
    m.telem = telemetryCycle s.scfg s.fix ∧ m.snap = messageSnap m.telem s ∧
    ∃ loc w, locate m.snap.lat m.snap.lon = .ok loc ∧ messageText m.telem s.scfg m.snap loc = .ok m.text ∧
      wsprEncode m.text.callLo m.text.callHi m.text.grid m.text.power = .ok w ∧ w.sym = m.sym := by
  unfold buildMessage at h
  dsimp only at h
  split at h
  · cases h
  · rename_i loc hl
    split at h
    · cases h
    · rename_i text ht
      split at h
      · cases h
      · rename_i w hw
        cases h
        exact ⟨rfl, rfl, loc, w, hl, ht, hw, rfl⟩

/-! ### TONE_TICK -/

/-- The SCHED registers after one active tone tick (43_scheduler.md R270 to R278). -/
def keyedRegs (c : SchedRegs) (off : Word) : SchedRegs :=
  { c with
    cursor := c.cursor + 1
    toneLast := off
    rfOn := if c.cursor + 1 = 162#8 then false else if c.cursor = 0#8 then true else c.rfOn
    toneRun := if c.cursor + 1 = 162#8 then false else c.toneRun }

/-- The events of one active tone tick, in order (43_scheduler.md R270 to R278). -/
def keyedEvents (c : SchedRegs) (off : Word) : List Event :=
  (if c.cursor = 0#8 then [.rfEnable true] else []) ++ [.setTone off c.txCorr] ++
    (if c.cursor + 1 = 162#8 then [.rfEnable false, .toneClock false] else [])

/-- What one active tone tick does: the SCHED registers and the trace, and nothing else (43_scheduler.md R270). -/
theorem keySymbol_eq (s : State) :
    keySymbol s = (s.setSched (keyedRegs s.sched (toneOffset s.sched.txBase (currentSymbol s)))).setTrace
      (s.trace ++ keyedEvents s.sched (toneOffset s.sched.txBase (currentSymbol s))) := by
  by_cases h0 : s.sched.cursor = 0#8
  · apply State.eq_of_fields <;>
      simp [keySymbol, startRf, h0, setTone, advanceCursor, finishTones, driveRf, keyedRegs, keyedEvents, currentSymbol]
  · by_cases h1 : s.sched.cursor + 1#8 = 162#8
    · apply State.eq_of_fields <;>
        simp [keySymbol, startRf, h0, h1, setTone, advanceCursor, finishTones, driveRf, driveToneClock, keyedRegs,
          keyedEvents, currentSymbol]
    · apply State.eq_of_fields <;>
        simp [keySymbol, startRf, h0, h1, setTone, advanceCursor, finishTones, keyedRegs, keyedEvents, currentSymbol]

/-- TONE_TICK acts exactly under the conditions of 43_scheduler.md R271. -/
theorem toneActive_iff (c : SchedRegs) :
    toneActive c = true ↔ c.state = .transmitting ∧ c.toneRun = true ∧ c.cursor.toNat < 162 := by
  simp [toneActive, and_assoc]

/-- A TONE_TICK keys one symbol or leaves everything but LAST_ERR alone (43_scheduler.md R270, R271). -/
theorem execToneTick_eq (s : State) :
    execToneTick s = .next (if toneActive s.sched then keySymbol (succeed s) else succeed s) := rfl

end Sys2Proof.Machine
end

