-- ==== Sys2Proof/Laws/Safety.lean ====
section
/-! SUPPORT. Small laws of the notions of Safety.lean: levels along a growing trace, what a valid configuration gives, what the
invariant depends on, and the frame of a command that either writes its results or raises an error. -/

namespace Sys2Proof.Machine

/-! ### Levels -/

/-- The RF level after more events (43_scheduler.md R289). -/
theorem rfLevel_append (a b : List Event) : rfLevel (a ++ b) = b.foldl rfAfter (rfLevel a) := by simp [rfLevel]

/-- The tone-clock level after more events (43_scheduler.md R289). -/
theorem clockLevel_append (a b : List Event) : clockLevel (a ++ b) = b.foldl clockAfter (clockLevel a) := by simp [clockLevel]

/-! ### Valid configurations -/

/-- A valid NOFF is 1 to 8 (43_scheduler.md R247). -/
theorem noff_of_cfgValid {c : ScfgRegs} (h : cfgValid c = true) : 1 ≤ c.noff.toNat ∧ c.noff.toNat ≤ 8 := by
  simp [cfgValid] at h
  exact ⟨h.1.1.2.1, h.1.1.2.2⟩

/-- An active slot of a valid configuration leaves room for three tone steps (43_scheduler.md R247, R276). -/
theorem offset_le_of_cfgValid {c : ScfgRegs} (h : cfgValid c = true) {i : Fin 8} (hi : i.val < c.noff.toNat) :
    (offsetSlot c.off i).toNat ≤ Config.offsetMax := by
  simp only [cfgValid, Bool.and_eq_true, cfgOffsetsValid, List.all_eq_true] at h
  simpa [hi] using h.1.2 i (List.mem_finRange i)

/-! ### The invariant -/

/-- The invariant speaks of the scheduler status, the configuration, TXBUF and the trace alone. -/
theorem Inv.congr {s t : State} (h : Inv s) (h1 : t.sched = s.sched) (h2 : t.scfg = s.scfg) (h3 : t.txbuf = s.txbuf)
    (h4 : t.trace = s.trace) : Inv t := by
  obtain ⟨a, b, c, d, e, f, g, i, j, k, l⟩ := h
  constructor <;> (try simp only [h1, h2, h3, h4]) <;> assumption

/-- TX_CURSOR does not wrap below 162 (10_state.md R52). -/
theorem toNat_cursor_succ {c : Byte} (h : c.toNat < 162) : (c + 1#8).toNat = c.toNat + 1 := by
  rw [BitVec.toNat_add]
  simp
  omega

/-! ### Frames of the codec commands -/

/-- A command that answers its results or an error keeps the frame its result writer keeps (60_exceptions.md R311, R312). -/
theorem complete_frame {dests : List Reg} {s : State} {r : Except Err State}
    (h : ∀ t, r = .ok t → CommandFrame dests s t ∧ t.trace = s.trace) :
    CommandFrame dests s (complete s r) ∧ (complete s r).trace = s.trace := by
  rcases complete_cases s r with ⟨t, h1, h2⟩ | ⟨e, -, h2⟩
  · obtain ⟨⟨a, b, c⟩, d⟩ := h t h1
    rw [h2]
    exact ⟨⟨fun q hq hs => by rw [readReg_setLastErr hs]; exact a q hq hs, b, c⟩, d⟩
  · rw [h2]
    exact ⟨⟨fun q _ hs => readReg_setLastErr hs _ _, ⟨rfl, rfl, rfl, rfl⟩, ⟨rfl, rfl, rfl⟩⟩, rfl⟩

end Sys2Proof.Machine
end

