-- ==== Sys2Proof/Laws/Telemetry.lean ====
section
/-! SUPPORT. Laws of the locator and of the U4B codec: ranges, character classes, and each packing undone, so that the round trips and
the build of a message follow without unfolding. -/

namespace Sys2Proof.Machine

/-! ### Locator -/

/-- An in-range position has a locator (40_locator.md R121). -/
theorem locate_ok {lat lon : Word} (h : coordsInRange lat.toInt lon.toInt = true) :
    locate lat lon = .ok (locatorChars (shiftLon lon.toInt) (shiftLat lat.toInt)) := by simp [locate, h]

/-- The shifted coordinates of an in-range position (40_locator.md R122). -/
theorem shift_lt {lat lon : Int} (h : coordsInRange lat lon = true) : shiftLon lon < 360000000 ∧ shiftLat lat < 180000000 := by
  simp [coordsInRange] at h
  simp only [shiftLon, shiftLat]
  omega

/-- The first four characters of a locator are a legal grid (40_locator.md R127, 41_wspr_encoder.md R146). -/
theorem gridLegal_locator {x y : Nat} (hx : x < 360000000) (hy : y < 180000000) :
    gridLegal (strLo (locatorChars x y)) = true := by
  simp only [gridLegal, strLo, lane_word4_0, lane_word4_1, lane_word4_2, lane_word4_3, locatorChars, Bool.and_eq_true]
  exact ⟨⟨⟨isField_chrPlus (by omega), isField_chrPlus (by omega)⟩, isDigit_chrPlus (by omega)⟩, isDigit_chrPlus (by omega)⟩

/-- The last two characters of a locator are a legal subsquare (40_locator.md R127, 42_u4b_codec.md R192). -/
theorem subsqLegal_locator (x y : Nat) : subsqLegal (half2 (locatorChars x y).c4 (locatorChars x y).c5) = true := by
  simp only [subsqLegal, lane_half2_0, lane_half2_1, locatorChars, Bool.and_eq_true]
  exact ⟨isLowerAX_chrPlus (by omega), isLowerAX_chrPlus (by omega)⟩

/-! ### Call frames -/

/-- The range of the call's telem_int (42_u4b_codec.md R194). -/
theorem callInt_le {sq : BitVec 16} {alt : Int} (hs : subsqLegal sq = true) (ha : altitudeLegal alt = true) :
    callInt sq alt ≤ 615167 := by
  simp only [subsqLegal, Bool.and_eq_true] at hs
  have h0 := lowerVal_lt hs.1
  have h1 := lowerVal_lt hs.2
  simp [altitudeLegal] at ha
  simp only [callInt]
  omega

/-- The pseudo-callsign of a channel has legal channel characters (42_u4b_codec.md R196, R217). -/
theorem callChannelLegal_pseudoCall {ch : BitVec 16} (h : channelLegal ch = true) (t : Nat) :
    callChannelLegal (pseudoCall ch t) = true := h

/-- A pseudo-callsign has legal value characters (42_u4b_codec.md R196, R218). -/
theorem callValuesLegal_pseudoCall (ch : BitVec 16) {t : Nat} (h : t ≤ 615167) : callValuesLegal (pseudoCall ch t) = true := by
  simp only [callValuesLegal, pseudoCall, Bool.and_eq_true]
  exact ⟨⟨⟨chr36_class (by omega), isUpper_chrPlus (by omega)⟩, isUpper_chrPlus (by omega)⟩, isUpper_chrPlus (by omega)⟩

/-- Decoding undoes the digits of a pseudo-callsign (42_u4b_codec.md R195, R219). -/
theorem decodedCallInt_pseudoCall (ch : BitVec 16) {t : Nat} (h : t ≤ 615167) : decodedCallInt (pseudoCall ch t) = t := by
  simp only [decodedCallInt, pseudoCall]
  rw [val36_chr36 (by omega), upperVal_chrPlus (by omega), upperVal_chrPlus (by omega), upperVal_chrPlus (by omega)]
  omega

/-- A pseudo-callsign has the classes of a normalised callsign (42_u4b_codec.md R196, 41_wspr_encoder.md R143). -/
theorem callClassesLegal_pseudoCall {ch : BitVec 16} (hc : channelLegal ch = true) {t : Nat} (h : t ≤ 615167) :
    callClassesLegal (pseudoCall ch t) = true := by
  simp only [channelLegal, Bool.and_eq_true] at hc
  have h0 : isDigit (lane ch 0) = true ∨ isUpper (lane ch 0) = true := by
    have := hc.1
    simp only [channelLetter, Bool.or_eq_true, beq_iff_eq] at this
    rcases this with e | e <;> rw [e] <;> decide
  have h1 := chr36_class (v := t / 17576) (by omega)
  simp only [callClassesLegal, pseudoCall, Bool.and_eq_true, Bool.or_eq_true]
  exact ⟨⟨⟨⟨⟨.inl h0, by simpa using h1⟩, hc.2⟩, .inl (isUpper_chrPlus (by omega))⟩, .inl (isUpper_chrPlus (by omega))⟩,
    .inl (isUpper_chrPlus (by omega))⟩

/-- What the call encoder can answer (42_u4b_codec.md R190). -/
theorem encCall_ok {ch sq : BitVec 16} {alt : Word} {f : CallFrame} (h : encCall ch sq alt = .ok f) :
    channelLegal ch = true ∧ subsqLegal sq = true ∧ altitudeLegal alt.toInt = true ∧
      f = ⟨pseudoCall ch (callInt sq alt.toInt), callInt sq alt.toInt⟩ := by
  unfold encCall at h
  split at h
  · cases h
  · split at h
    · cases h
    · split at h
      · cases h
      · cases h
        simp_all

/-! ### Engineering frames -/

/-- The range of the engineering telem_int (42_u4b_codec.md R203). -/
theorem engInt_le {tq vq sq : Nat} (ht : tq ≤ 89) (hv : vq ≤ 39) (hs : sq ≤ 41) (orient health : Bool) :
    engInt tq vq sq orient health ≤ 604799 := by
  simp only [engInt]
  have ho := Bool.toNat_lt orient
  have hh := Bool.toNat_lt health
  omega

/-- The quantised temperature is at most 89 (42_u4b_codec.md R200). -/
theorem quantTemp_le (temp : Int) : quantTemp temp ≤ 89 := by simp only [quantTemp, clampInt]; omega

/-- The quantised voltage is at most 39 (42_u4b_codec.md R201). -/
theorem quantVolt_le (mv : Nat) : quantVolt .halfUp mv ≤ 39 := by simp only [quantVolt, clampNat]; omega

/-- The quantised speed is at most 41 (42_u4b_codec.md R202). -/
theorem quantSpeed_le (spd : Nat) : quantSpeed spd ≤ 41 := by simp only [quantSpeed, clampNat]; omega

/-- The telem_int of an engineering frame (42_u4b_codec.md R203). -/
theorem encEng_t_le (temp volt speed : Word) (orient health : Bool) : (encEng temp volt speed orient health).t ≤ 604799 :=
  engInt_le (quantTemp_le _) (quantVolt_le _) (quantSpeed_le _) _ _

/-- The grid of an engineering frame is legal (42_u4b_codec.md R206). -/
theorem gridLegal_engGrid {t : Nat} (h : t ≤ 604799) : gridLegal (engGrid t) = true := by
  simp only [gridLegal, engGrid, lane_word4_0, lane_word4_1, lane_word4_2, lane_word4_3, Bool.and_eq_true]
  exact ⟨⟨⟨isField_chrPlus (by omega), isField_chrPlus (by omega)⟩, isDigit_chrPlus (by omega)⟩, isDigit_chrPlus (by omega)⟩

/-- Decoding undoes the digits of an engineering grid (42_u4b_codec.md R206, R213). -/
theorem gridInt_engGrid {t : Nat} (h : t ≤ 604799) : gridInt (engGrid t) = t / 19 := by
  simp only [gridInt, engGrid, lane_word4_0, lane_word4_1, lane_word4_2, lane_word4_3]
  rw [upperVal_chrPlus (by omega), upperVal_chrPlus (by omega), digitVal_chrPlus (by omega), digitVal_chrPlus (by omega)]
  omega

/-- Every entry of POWER_LUT is a legal power (42_u4b_codec.md R205). -/
theorem powerLegal_engPower (t : Nat) : powerLegal (engPower t) = true := by
  have : ∀ k : Fin 19, powerLegal (powerLut.getD k.val 0) = true := by decide
  exact this ⟨t % 19, Nat.mod_lt _ (by decide)⟩

/-- The first index of a power that the encoder emits: its own, but 11 for index 17 (42_u4b_codec.md R212, 90_conflicts.md C1). -/
theorem findIdx_engPower (t : Nat) :
    powerLut.findIdx? (fun p => p == engPower t) = some (if t % 19 = 17 then 11 else t % 19) := by
  have : ∀ k : Fin 19, powerLut.findIdx? (fun p => p == powerLut.getD k.val 0) = some (if k.val = 17 then 11 else k.val) := by
    decide
  exact this ⟨t % 19, Nat.mod_lt _ (by decide)⟩

end Sys2Proof.Machine
end

