-- ==== Sys2Proof/Tests/Slice0.lean ====
section
/-! SUPPORT. Small tests: the well-formedness checks on ill-formed words, command words written out from the spec, one step per command
with expected values from 95_test_vectors.md, and for every obligation with hypotheses a witness that meets them. -/

namespace Sys2Proof.Tests

open Sys2Proof.Machine

/-! ### Small states -/

/-- The state an outcome answers. -/
def after (o : Host.Outcome State Fault Refusal) : State :=
  match o with
  | .next t => t
  | .fault _ => .reset
  | .refused _ => .reset

/-- The state after one command. -/
def run1 (i : Instr) (s : State) : State := after (exec i s)

/-- The state after one input. -/
def put1 (i : Input) (s : State) : State := after (deliver i s)

/-- The reset state with codec registers `c`. -/
def withCodec (c : CodecRegs) : State := { State.reset with codec := c }

/-- A register word of four characters. -/
def w4 (s : List Char) : Word := strLo (paddedStr6 s)

/-- The operands of WSPR_ENCODE. -/
def wsprOperands (call grid : List Char) (power : Byte) : State :=
  withCodec { CodecRegs.reset with
    callLo := strLo (paddedStr6 call), callHi := strHi (paddedStr6 call), grid := w4 grid, power := power }

/-- The operands of LOCATE, in microdegrees. -/
def locateOperands (lat lon : Int) : State :=
  withCodec { CodecRegs.reset with lat := BitVec.ofInt 32 lat, lon := BitVec.ofInt 32 lon }

/-- The operands of U4B_ENC_CALL. -/
def encCallOperands (ch sq : List Char) (alt : Int) : State :=
  withCodec { CodecRegs.reset with
    chan := (w4 ch).setWidth 16, subsq := (w4 sq).setWidth 16, alt := BitVec.ofInt 32 alt }

/-- The operands of U4B_ENC_ENG. -/
def encEngOperands (temp : Int) (volt speed : Nat) (flags : BitVec 2) : State :=
  withCodec { CodecRegs.reset with
    temp := BitVec.ofInt 32 temp, volt := BitVec.ofNat 32 volt, speed := BitVec.ofNat 32 speed, flags := flags }

/-- The operand of U4B_DEC_CALL. -/
def decCallOperands (call : List Char) : State :=
  withCodec { CodecRegs.reset with ucallLo := strLo (paddedStr6 call), ucallHi := strHi (paddedStr6 call) }

/-- The operands of U4B_DEC_ENG. -/
def decEngOperands (grid : List Char) (power : Byte) : State :=
  withCodec { CodecRegs.reset with ugrid := w4 grid, upower := power }

/-- The configuration of the vectors V-S: W6NXP, U4B, TMIN 9, channel Q0, correction -250, two slots. -/
def cfg : ScfgRegs where
  ctrl := 1
  tmin := 9
  callLo := 0x584E3657#32
  callHi := 0x0050#16
  chan := 0x3051#16
  corr := BitVec.ofInt 32 (-250)
  noff := 2
  off := ⟨1500000, 1600000, 0, 0, 0, 0, 0, 0⟩

/-- The fix of the vectors V-S at a time of day. -/
def fixAt (time : Word) : FixRegs where
  time := time
  date := 111126
  lat := BitVec.ofInt 32 37774900
  lon := BitVec.ofInt 32 (-122419400)
  alt := 12000
  sats := 9
  speed := 0

/-- The sensors of the vectors V-S. -/
def sensors : SnsRegs where
  temp := 20
  press := 0
  vin := 3500
  vsol := 0
  lfront := 5
  lback := 9
  valid := 0x3F

/-- The base state of the vectors V-S in a scheduler state. -/
def inState (x : SchedState) (time : Word) : State :=
  { State.reset with
    scfg := cfg, fix := fixAt time, sns := sensors, sched := { SchedRegs.reset with state := x } }

/-- The base state in a scheduler state without a fix. -/
def noFixIn (x : SchedState) (time : Word) : State :=
  { inState x time with fix := { fixAt time with lat := 0, lon := 0 } }

/-- The normalised callsign of the message registers of `messageIn`. -/
def messageCall : Str6 := ⟨0x20#8, 0x57#8, 0x36#8, 0x4E#8, 0x58#8, 0x50#8⟩

/-- The message W6NXP CM87 10 pending in `x`, with TXBUF its symbols, NOT evaluated. -/
def messageIn (x : SchedState) (cursor : Byte) (toneRun rfOn : Bool) : State :=
  { inState x 123159 with
    txbuf := (encodeLegal messageCall (w4 ['C', 'M', '8', '7']) 10#8).sym
    trace := [.toneClock toneRun, .rfEnable rfOn]
    sched := { SchedRegs.reset with
      state := x, cursor := cursor, msgValid := true, ppsCount := 5, ppsLast := 4, offIndex := 1, toneRun := toneRun, rfOn := rfOn
      txBase := 1500000, txCorr := BitVec.ofInt 32 (-250)
      msgCallLo := 0x584E3657#32, msgCallHi := 0x0050#16, msgGrid := w4 ['C', 'M', '8', '7'], msgPower := 10#8 } }

/-- TXBUF of program P4: symbols 0, 1, 3 and 161 are 3, 3, 0 and 2. -/
def p4Symbols : BitVec 324 :=
  0xA#4 ++ 0x9E8539E2#32 ++ 0x8878462A#32 ++ 0x7484D2D3#32 ++ 0xD2E9881A#32 ++ 0xB9942DB0#32 ++ 0x61B1B162#32 ++
    0x136ACD07#32 ++ 0x38824E18#32 ++ 0xA83F6612#32 ++ 0x3FA1882F#32

/-- The states of the vectors V-T. -/
def toning (base : Word) (cursor : Byte) (rfOn : Bool) : State :=
  { State.reset with
    lastErr := some .invalidChannel, txbuf := p4Symbols
    sched := { SchedRegs.reset with
      state := .transmitting, toneRun := true, rfOn := rfOn, cursor := cursor, txBase := base, txCorr := BitVec.ofInt 32 (-250) } }

/-! ### Well-formedness smoke: an ill-formed term for each check, which the check refuses -/

/-- 0x00000100 has a non-zero bit in [31:8] (30_encoding.md R92). -/
theorem test_wellFormed_upperBits : upperBitsClear 0x00000100#32 = false ∧ commandWordWellFormed 0x00000100#32 = false := by decide

/-- The first and last word of each range of illegal opcodes (30_encoding.md R92, vectors V-X). -/
theorem test_wellFormed_opcode :
    [0x07#32, 0x0F#32, 0x13#32, 0x1E#32, 0x20#32, 0xFF#32].all (fun w => !opcodeAssigned w && !commandWordWellFormed w) = true ∧
    [0x06#32, 0x10#32, 0x12#32, 0x1F#32].all opcodeAssigned = true := by decide

/-- The refused words decode to an error that names the failed check. -/
theorem test_decode_refuses :
    decode 0x00000100#32 = .error .upperBitsSet ∧ decode 0x80000002#32 = .error .upperBitsSet ∧
    decode 0x00000007#32 = .error .unassignedOpcode ∧ decode 0x0000001E#32 = .error .unassignedOpcode := ⟨rfl, rfl, rfl, rfl⟩

/-! ### Decoding: words written out from 30_encoding.md R91 -/

theorem test_decode_nop : decode 0b00000000000000000000000000000000#32 = .ok .nop := rfl
theorem test_decode_locate : decode 0b00000000000000000000000000000001#32 = .ok .locate := rfl
theorem test_decode_wsprEncode : decode 0b00000000000000000000000000000010#32 = .ok .wsprEncode := rfl
theorem test_decode_u4bEncCall : decode 0b00000000000000000000000000000011#32 = .ok .u4bEncCall := rfl
theorem test_decode_u4bEncEng : decode 0b00000000000000000000000000000100#32 = .ok .u4bEncEng := rfl
theorem test_decode_u4bDecCall : decode 0b00000000000000000000000000000101#32 = .ok .u4bDecCall := rfl
theorem test_decode_u4bDecEng : decode 0b00000000000000000000000000000110#32 = .ok .u4bDecEng := rfl
theorem test_decode_schedTick : decode 0b00000000000000000000000000010000#32 = .ok .schedTick := rfl
theorem test_decode_toneTick : decode 0b00000000000000000000000000010001#32 = .ok .toneTick := rfl
theorem test_decode_ppsEdge : decode 0b00000000000000000000000000010010#32 = .ok .ppsEdge := rfl
theorem test_decode_schedReset : decode 0b00000000000000000000000000011111#32 = .ok .schedReset := rfl
theorem test_decodeTableWord : decodeTableWord 32 0x11 = some .toneTick ∧ decodeTableWord 32 0x111 = none := by decide

/-- The word put next is the one `step` runs. -/
theorem test_withFetchWord : (after (step (State.reset.withFetchWord 32 0x12))).sched.ppsCount = 1 := by decide

/-! ### One step per command (95_test_vectors.md) -/

/-- V-N. -/
theorem test_nop : run1 .nop { State.reset with lastErr := some .coordOutOfRange } = State.reset := by decide

/-- V-L, the example of 40_locator.md R120. -/
theorem test_locate_example :
    readReg .locLo (run1 .locate (locateOperands 37774900 (-122419400))) = 0x37384D43#32 ∧
    readReg .locHi (run1 .locate (locateOperands 37774900 (-122419400))) = 0x00007373#32 := by decide

/-- V-L: both upper edges saturate; one microdegree beyond is refused. -/
theorem test_locate_edges :
    readReg .locLo (run1 .locate (locateOperands 90000000 180000000)) = 0x39395252#32 ∧
    readReg .locHi (run1 .locate (locateOperands 90000000 180000000)) = 0x00007878#32 ∧
    (run1 .locate (locateOperands 90000001 0)).lastErr = some .coordOutOfRange := by decide

/-- V-W0: K1ABC FN42 37, the published worked example of the packing. -/
theorem test_wsprEncode_packing :
    packCall ⟨0x20#8, 0x4B#8, 0x31#8, 0x41#8, 0x42#8, 0x43#8⟩ = 0x0F70C238 ∧ packGrid (w4 ['F', 'N', '4', '2']) = 22632 ∧
    payloadBytes (payload 0x0F70C238 2896997) =
      [0xF7#8, 0x0C#8, 0x23#8, 0x8B#8, 0x0D#8, 0x19#8, 0x40#8, 0#8, 0#8, 0#8, 0#8] := by decide

/-- V-W1: W6NXP DM03 10 through every stage. -/
theorem test_wsprEncode_stages :
    let t := run1 .wsprEncode (wsprOperands ['W', '6', 'N', 'X', 'P'] ['D', 'M', '0', '3'] 10)
    readReg .normLo t = 0x4E365720#32 ∧ readReg .packN t = 0x0F967473#32 ∧ readReg .packM t = 0x00349FCA#32 ∧
    readReg (.fecbuf 0) t = 0xC54946F7#32 ∧ readReg (.ilvbuf 5) t = 0x00000001#32 ∧
    readReg (.symbuf 0) t = 0x1FA90827#32 ∧ readReg (.symbuf 9) t = 0xB685196A#32 ∧ t.lastErr = none := by decide +kernel

/-- V-EC, the largest t, and the order of the checks. -/
theorem test_u4bEncCall :
    let t := run1 .u4bEncCall (encCallOperands ['Q', '9'] ['x', 'x'] 21359)
    readReg .ucallInt t = 615167#32 ∧ readReg .ucallLo t = 0x41395A51#32 ∧ readReg .ucallHi t = 0x00004841#32 ∧
    (run1 .u4bEncCall (encCallOperands ['R', '0'] ['z', 'z'] (-5))).lastErr = some .invalidChannel ∧
    (run1 .u4bEncCall (encCallOperands ['Q', '0'] ['a', 'a'] 21360)).lastErr = some .altitudeOutOfRange := by decide

/-- V-EE: the example, and the half step. -/
theorem test_u4bEncEng :
    let t := run1 .u4bEncEng (encEngOperands 20 3500 10 3)
    let u := run1 .u4bEncEng (encEngOperands 0 3025 0 0)
    readReg .uengInt t = 472103#32 ∧ readReg .ugrid t = 0x37344F4E#32 ∧ readReg .upower t = 33#32 ∧
    readReg .uengInt u = 336168#32 ∧ readReg .ugrid u = 0x33394F4A#32 ∧ readReg .upower u = 3#32 := by decide

/-- V-DC: the largest legal value and the first illegal one. -/
theorem test_u4bDecCall :
    let t := run1 .u4bDecCall (decCallOperands ['Q', 'Z', '9', 'A', 'A', 'H'])
    readReg .dchan t = 0x00003951#32 ∧ readReg .dsubsq t = 0x00007878#32 ∧ readReg .dalt t = 21340#32 ∧
    (run1 .u4bDecCall (decCallOperands ['Q', 'Z', '9', 'A', 'A', 'I'])).lastErr = some .invalidGrid := by decide

/-- V-DE: the duplicate 37 decodes at index 11; 57 is refused. -/
theorem test_u4bDecEng :
    let t := run1 .u4bDecEng (decEngOperands ['A', 'A', '0', '0'] 37)
    readReg .uengInt t = 11#32 ∧ readReg .dtemp t = 0xFFFFFFCE#32 ∧ readReg .dspeed t = 4#32 ∧ readReg .dflags t = 3#32 ∧
    (run1 .u4bDecEng (decEngOperands ['A', 'A', '0', '0'] 57)).lastErr = some .invalidPower := by decide

/-- V-S11: a telemetry frame, sampled because both snapshot voltages are 0. -/
theorem test_schedTick_telemetry :
    let t := run1 .schedTick (inState .collectTelemetry 121900)
    t.sched.state = .waitForTransmit ∧ t.sched.msgCallLo = 0x4A305251#32 ∧ t.sched.msgGrid = w4 ['N', 'O', '4', '6'] ∧
    t.sched.msgPower = 23#8 ∧ t.sched.msgTelem = true ∧ t.snap.vin = 3500#32 := by decide +kernel

/-- V-S22: arming with the second of two slots; V-S17: fix loss at the slot. -/
theorem test_schedTick_arm :
    let t := run1 .schedTick (messageIn .awaitPps 0 false false)
    t.sched.state = .transmitting ∧ t.sched.txBase = 1600000#32 ∧ t.sched.offIndex = 0 ∧ t.sched.ppsLast = 5#32 ∧
    (run1 .schedTick (noFixIn .waitForTransmit 123159)).sched.state = .waitForFix := by decide

/-- V-T1 and V-T4: the first tone tick, and the largest legal base. -/
theorem test_toneTick_first :
    (run1 .toneTick (toning 1500000 0 false)).trace = [.rfEnable true, .setTone 1504395 (BitVec.ofInt 32 (-250))] ∧
    (run1 .toneTick (toning 0xFFFFEED4 1 true)).sched.toneLast = 0xFFFFFFFF#32 := by decide

/-- V-T3: the last tone tick. -/
theorem test_toneTick_last :
    let t := run1 .toneTick (toning 1500000 161 true)
    t.trace = [.setTone 1502930 (BitVec.ofInt 32 (-250)), .rfEnable false, .toneClock false] ∧ t.sched.cursor = 162 ∧
    t.sched.rfOn = false ∧ t.sched.toneRun = false ∧ t.lastErr = none := by decide

/-- V-P: the count wraps. -/
theorem test_ppsEdge :
    (run1 .ppsEdge { State.reset with sched := { SchedRegs.reset with ppsCount := 0xFFFFFFFF#32 } }).sched.ppsCount = 0 := by decide

/-- V-R: SCHED_RESET mid-transmission with SCHED_ERR = 1. -/
theorem test_schedReset :
    let t := run1 .schedReset { messageIn .transmitting 40 true true with schedErr := true }
    t.sched = SchedRegs.reset ∧ t.schedErr = true ∧ t.scfg = cfg ∧ t.txbuf = 0 ∧
    t.trace.drop 2 = [.rfEnable false, .toneClock false] := by decide

/-! ### The bus (95_test_vectors.md V-A, V-X, P6) -/

/-- V-A: a write to ID, an unmapped read, a 2-byte write, a locked write. -/
theorem test_access_errors :
    put1 (.write 0x000#12 4 0x12345678#32) State.reset = { State.reset with accessErr := true } ∧
    (put1 (.read 0xFFC#12 4) State.reset).reads = [0#32] ∧
    put1 (.write 0x010#12 2 0x3657#32) State.reset = { State.reset with accessErr := true } ∧
    (put1 (.write 0x204#12 4 3#32) (inState .waitForFix 0)).scfg.tmin = 9 := by decide

/-- V-A: W1C of ACCESS_ERR, and a write of zeros to it. -/
theorem test_status_w1c :
    (put1 (.write 0x008#12 4 0x100#32) { State.reset with accessErr := true }).accessErr = false ∧
    (put1 (.write 0x008#12 4 0xFF#32) { State.reset with accessErr := true, lastErr := some .invalidGrid }).lastErr =
      some .invalidGrid := by decide

/-- V-X and V-S14: STATUS as the host reads it. -/
theorem test_status_words :
    readReg .status (put1 (.write 0x004#12 4 0x80000002#32) State.reset) = 0x00000407#32 ∧
    readReg .status (run1 .schedTick { inState .collectTelemetry 121900 with fix := { fixAt 121900 with alt := 30000 } }) =
      0x00050205#32 := by decide +kernel

/-- The example of 30_encoding.md R103. -/
theorem test_script_wrstr6 :
    scriptWrstr6 .callLo .callHi ['W', '6', 'N', 'X', 'P'] =
      [.write 0x010#12 4 0x584E3657#32, .write 0x014#12 4 0x00000050#32] := by decide

/-- SYNC against the string of 41_wspr_encoder.md R161. -/
theorem test_syncTable : syncTable.length = 162 ∧
    syncTable.map (fun b => if b = 1#1 then '1' else '0') =
      "110000001000111000100101111000000010010100000010110011010001101000011010101010010010110001101010001000001001001110110011010001110000010100110000000110101100011000".toList := by
  decide +kernel

/-! ### Witnesses: states and operands that meet the hypotheses of each obligation -/

/-- The callsign of `cfg` and `messageIn` normalises. -/
theorem normalise_w6nxp : normalise (nulTerminated 0x584E3657#32 0x0050#16) = .ok messageCall := rfl

/-- The encoder answers on the message of `messageIn`. -/
theorem encode_w6nxp {g : Word} {p : Byte} (hg : gridLegal g = true) (hp : powerLegal p = true) :
    wsprEncode 0x584E3657#32 0x0050#16 g p = .ok (encodeLegal messageCall g p) := wsprEncode_ok normalise_w6nxp hg hp

/-- The configuration of the vectors is valid. -/
theorem cfg_valid : cfgValid cfg = true := by decide

/-- An invariant state in AwaitPps, with an edge to arm on. -/
theorem inv_awaitPps : Inv (messageIn .awaitPps 0 false false) where
  cursor_le := by decide
  toneRun_iff := by decide
  rfOn_iff := by decide
  msgValid_iff := by decide
  cfg_valid := fun _ => cfg_valid
  offIndex_lt := by decide
  offIndex_init := by decide
  txBase_le := by decide
  txbuf_encodes := fun _ => ⟨_, encode_w6nxp (by decide) (by decide), rfl⟩
  rf_level := by decide
  clock_level := by decide

/-- An invariant state in mid-transmission. -/
theorem inv_transmitting : Inv (messageIn .transmitting 40 true true) where
  cursor_le := by decide
  toneRun_iff := by decide
  rfOn_iff := by decide
  msgValid_iff := by decide
  cfg_valid := fun _ => cfg_valid
  offIndex_lt := by decide
  offIndex_init := by decide
  txBase_le := by decide
  txbuf_encodes := fun _ => ⟨_, encode_w6nxp (by decide) (by decide), rfl⟩
  rf_level := by decide
  clock_level := by decide

/-- An input while `rst` is asserted, and the release. -/
theorem witness_ResetInput :
    State.reset.inReset = false ∧ ({ State.reset with inReset := true } : State).inReset = true ∧
    ∀ b, Input.ppsIn ≠ .rst b := by simp [State.reset]

theorem witness_InvIsKeptByEveryStep :
    ∃ s t, Inv s ∧ s.pending = [.toneTickIn] ∧ step s = .next t :=
  ⟨(messageIn .transmitting 40 true true).setPending [.toneTickIn], _,
    inv_transmitting.congr rfl rfl rfl rfl, rfl, rfl⟩

theorem witness_StepRunsTheDecodedCommand :
    (∃ s : State, s.inReset = false ∧ s.pending = .write 0x004#12 4 0x1F#32 :: [] ∧ decode 0x1F#32 = .ok .schedReset) ∧
    State.reset.pending = [] ∧ 2 ^ 32 - 1 < 2 ^ 32 ∧
    (State.reset.setPending [.read 0x000#12 4, .rst true]).pending = .read 0x000#12 4 :: [.rst true] :=
  ⟨⟨State.reset.setPending [.write 0x004#12 4 0x1F#32], rfl, rfl, rfl⟩, rfl, by decide, rfl⟩

/-- A word at each end of each illegal range. -/
theorem witness_IllegalCommandWords :
    State.reset.inReset = false ∧ (0x100#32).toNat / 256 ≠ 0 ∧ 0x07 ≤ (0x07#32).toNat % 256 ∧ (0x0F#32).toNat % 256 ≤ 0x0F ∧
    0x13 ≤ (0x13#32).toNat % 256 ∧ (0x1E#32).toNat % 256 ≤ 0x1E ∧ 0x20 ≤ (0x20#32).toNat % 256 ∧ 0x20 ≤ (0xFF#32).toNat % 256 := by
  decide

theorem witness_PinEdgesAreCommands :
    ∃ s : State, s.inReset = false ∧ s.pending = List.replicate 2 .ppsIn ++ [.toneTickIn] :=
  ⟨State.reset.setPending [.ppsIn, .ppsIn, .toneTickIn], rfl, rfl⟩

/-- Each kind of bad access, at a boundary. -/
theorem witness_BadAccessesSetAccessErr :
    State.reset.inReset = false ∧ (0x001#12).toNat % 4 ≠ 0 ∧ (3 : Nat) ≠ 4 ∧ (∀ r, regOffset r ≠ 0x00C#12) ∧
    (∀ r, regOffset r ≠ 0xFFC#12) ∧ regAccess .id = .ro ∧ regAccess (.txbuf 10) = .ro ∧ regAccess (.scfgOff 7) = .locked ∧
    (inState .waitForTime 0).inReset = false ∧ (inState .waitForTime 0).sched.state ≠ .init :=
  ⟨rfl, by decide, by decide, (regAt_none_iff _).mp (by decide), (regAt_none_iff _).mp (by decide), rfl, rfl, rfl, rfl,
    by decide⟩

theorem witness_ReadsAndWrites :
    State.reset.inReset = false ∧ regAccess .callLo = .rw ∧ regAccess .snsValid = .rw ∧
    regAccess .scfgNoff = .locked ∧ State.reset.sched.state = .init := ⟨rfl, rfl, rfl, rfl, rfl⟩

theorem witness_ConfigurationLock :
    regAccess .scfgCtrl = .locked ∧ State.reset.inReset = false ∧ State.reset.sched.state = .init ∧
    ∃ s t : State, s.inReset = false ∧ s.sched.state ≠ .init ∧ (∀ b rest, s.pending ≠ .rst b :: rest) ∧ step s = .next t :=
  ⟨rfl, rfl, rfl, (inState .awaitPps 0).setPending [.write 0x200#12 4 0#32], _, rfl, by decide,
    by simp [State.setPending], rfl⟩

theorem witness_StickyStatusBits :
    ∃ s t : State, ∃ v, s.pending = [.write 0x008#12 4 v] ∧ (∀ b, Input.write 0x008#12 4 v ≠ .rst b) ∧ step s = .next t ∧
      s.accessErr = true ∧ s.schedErr = true ∧ v.getLsbD 8 = false ∧ v.getLsbD 9 = false :=
  ⟨{ State.reset with accessErr := true, schedErr := true, pending := [.write 0x008#12 4 0xFFFFFCFF#32] }, _, _, rfl,
    by simp, rfl, rfl, rfl, by decide, by decide⟩

theorem witness_LastErrIsTheLastCommands :
    (∀ v, Input.read 0x004#12 4 ≠ .write 0x004#12 4 v) ∧ (∀ v, Input.write 0x004#12 2 0#32 ≠ .write 0x004#12 4 v) ∧
    ∃ t, deliver (.read 0x004#12 4) State.reset = .next t :=
  ⟨by simp, by simp, _, rfl⟩

/-- An error of a codec command, of a tick in Init, of a build, and of an illegal word. -/
theorem witness_ErrorsAbortAtomically :
    (∃ t, exec .wsprEncode State.reset = .next t ∧ t.lastErr = some .invalidCallsign) ∧
    (∃ t, exec .schedTick State.reset = .next t ∧ t.lastErr = some .configInvalid) ∧
    (∃ s t, exec .schedTick s = .next t ∧ s.sched.state = .collectTelemetry ∧ t.lastErr = some .coordOutOfRange) ∧
    State.reset.inReset = false ∧ decode 0x07#32 = .error .unassignedOpcode :=
  ⟨⟨_, rfl, by decide⟩, ⟨_, rfl, by decide⟩,
    ⟨{ inState .collectTelemetry 121800 with fix := { fixAt 121800 with lat := 95000000 } }, _, rfl, rfl, by decide⟩, rfl, rfl⟩

theorem witness_CommandFrames : ∃ t, exec .schedReset (messageIn .transmitting 40 true true) = .next t := ⟨_, rfl⟩

theorem witness_BufferLayout : 161 < 162 := by decide

theorem witness_StringsInRegisters : 3 < 6 ∧ 5 < 6 := by decide

/-- Operands on and beyond the bounds of 40_locator.md R121. -/
theorem witness_LocateResult :
    (readReg .lat (locateOperands 90000000 (-180000000))).toInt = 90000000 ∧
    (readReg .lon (locateOperands 90000000 (-180000000))).toInt = -180000000 ∧
    (readReg .lat (locateOperands 90000001 0)).toInt = 90000001 := by decide

theorem witness_LocatorPattern :
    ∃ t, exec .locate (locateOperands (-90000000) 180000000) = .next t ∧ t.lastErr = none := ⟨_, rfl, by decide⟩

theorem witness_CallsignNormalisation : normalise [] = .error .invalidCallsign := rfl

/-- Operands for each of the four outcomes. -/
theorem witness_WsprEncodeCommand :
    (∀ n, normalise (nulTerminated State.reset.codec.callLo State.reset.codec.callHi) ≠ .ok n) ∧
    normalise (nulTerminated (wsprOperands ['W', '6', 'N', 'X', 'P'] [] 0).codec.callLo
      (wsprOperands ['W', '6', 'N', 'X', 'P'] [] 0).codec.callHi) = .ok messageCall ∧
    gridLegal (w4 ['S', 'A', '0', '0']) = false ∧ gridLegal (w4 ['R', 'R', '9', '9']) = true ∧
    (11#8).toNat ∉ [0, 3, 7, 10, 13, 17, 20, 23, 27, 30, 33, 37, 40, 43, 47, 50, 53, 57, 60] ∧
    (60#8).toNat ∈ [0, 3, 7, 10, 13, 17, 20, 23, 27, 30, 33, 37, 40, 43, 47, 50, 53, 57, 60] :=
  ⟨fun n h => (by cases h), rfl, by decide, by decide, by decide, by decide⟩

theorem witness_PackedFields : ∃ w, wsprEncode 0x584E3657#32 0x0050#16 (w4 ['A', 'R', '0', '9']) 60#8 = .ok w :=
  ⟨_, encode_w6nxp (by decide) (by decide)⟩

theorem witness_PayloadBitStream : 2 ^ 28 - 1 < 2 ^ 28 ∧ 2 ^ 22 - 1 < 2 ^ 22 ∧ 10 < 11 ∧ 80 < 81 := by decide

theorem witness_ConvolutionTaps : 80 < (List.replicate 81 true).length ∧ List.replicate 81 true = true :: List.replicate 80 true := by
  decide

theorem witness_InterleaverPlacement : 255 < 256 ∧ 7 < 8 ∧ 254 < 255 ∧ rev8 254 < 162 ∧ 161 < 162 := by decide

theorem witness_SymbolsAndSync : 161 < 162 := by decide

theorem witness_TransmittedSymbols :
    ∃ t, exec .wsprEncode (wsprOperands ['W', '6', 'N', 'X', 'P'] ['D', 'M', '0', '3'] 10) = .next t ∧ t.lastErr = none ∧
      161 < 162 ∧ 254 < 255 ∧ rev8 254 < 162 := by
  have h : wsprEncode (wsprOperands ['W', '6', 'N', 'X', 'P'] ['D', 'M', '0', '3'] 10).codec.callLo
      (wsprOperands ['W', '6', 'N', 'X', 'P'] ['D', 'M', '0', '3'] 10).codec.callHi
      (wsprOperands ['W', '6', 'N', 'X', 'P'] ['D', 'M', '0', '3'] 10).codec.grid
      (wsprOperands ['W', '6', 'N', 'X', 'P'] ['D', 'M', '0', '3'] 10).codec.power =
      .ok (encodeLegal messageCall (w4 ['D', 'M', '0', '3']) 10) := encode_w6nxp (by decide) (by decide)
  refine ⟨_, rfl, ?_, by decide, by decide, by decide⟩
  rw [h]
  rfl

/-- Operands for each of the four outcomes of U4B_ENC_CALL. -/
theorem witness_U4bEncodeCall :
    channelLegal (encCallOperands ['0', '9'] ['x', 'x'] 21359).codec.chan = true ∧
    subsqLegal (encCallOperands ['0', '9'] ['x', 'x'] 21359).codec.subsq = true ∧
    altitudeLegal (encCallOperands ['0', '9'] ['x', 'x'] 21359).codec.alt.toInt = true ∧
    channelLegal (encCallOperands ['R', '0'] [] 0).codec.chan = false ∧
    subsqLegal (encCallOperands [] ['a', 'y'] 0).codec.subsq = false ∧
    altitudeLegal (encCallOperands [] [] (-1)).codec.alt.toInt = false ∧
    altitudeLegal (encCallOperands [] [] 21360).codec.alt.toInt = false := by decide

/-- Operands for each of the four outcomes of U4B_DEC_CALL. -/
theorem witness_U4bDecodeCall :
    (run1 .u4bDecCall (decCallOperands ['Q', 'Z', '9', 'A', 'A', 'H'])).lastErr = none ∧
    (run1 .u4bDecCall (decCallOperands ['Q', '0', 'Z', 'Z', 'Z', 'Z'])).lastErr = some .invalidChannel ∧
    (run1 .u4bDecCall (decCallOperands ['Q', '0', '0', 'A', 'A', '1'])).lastErr = some .invalidCallsign ∧
    (run1 .u4bDecCall (decCallOperands ['Q', 'Z', '9', 'A', 'A', 'I'])).lastErr = some .invalidGrid := by decide

/-- Operands for each of the three outcomes of U4B_DEC_ENG; 37 is first at index 11. -/
theorem witness_U4bDecodeEngineering :
    (run1 .u4bDecEng (decEngOperands ['R', 'R', '9', '9'] 60)).lastErr = none ∧
    (run1 .u4bDecEng (decEngOperands ['S', 'A', '0', '0'] 57)).lastErr = some .invalidGrid ∧
    (run1 .u4bDecEng (decEngOperands ['A', 'A', '0', '0'] 57)).lastErr = some .invalidPower ∧
    powerLut[11]? = some 37 ∧ ∀ j, j < 11 → powerLut[j]? ≠ some 37 := by decide

theorem witness_CallRoundTrip :
    ∃ t, exec .u4bEncCall (encCallOperands ['Q', '0'] ['a', 'a'] 21359) = .next t ∧ t.lastErr = none := ⟨_, rfl, by decide⟩

/-- Operands whose t is 17, and operands whose t mod 19 is not 17. -/
theorem witness_EngineeringRoundTrip :
    (readReg .uengInt (run1 .u4bEncEng (encEngOperands (-50) 3000 8 1))).toNat % 19 = 17 ∧
    (readReg .uengInt (run1 .u4bEncEng (encEngOperands 39 4950 82 3))).toNat % 19 ≠ 17 ∧
    ∃ t, exec .u4bEncEng (encEngOperands (-50) 3000 8 1) = .next t := ⟨by decide, by decide, _, rfl⟩

theorem witness_TelemetryFramesEncode : ∃ f, encCall 0x3930#16 0x7878#16 21359#32 = .ok f := ⟨_, rfl⟩

/-- A tick in Init with and without a valid configuration. -/
theorem witness_TickInInit :
    State.reset.sched.state = .init ∧ (readReg .status State.reset).getLsbD 10 = true ∧
    (inState .init 0).sched.state = .init ∧ (readReg .status (inState .init 0)).getLsbD 10 = false := by decide

theorem witness_TickInWaitForTime : (inState .waitForTime 11).sched.state = .waitForTime := rfl

theorem witness_TickInWaitForFix :
    (inState .waitForFix 0).sched.state = .waitForFix ∧ readReg .fixLat (inState .waitForFix 0) ≠ 0#32 ∧
    (noFixIn .waitForFix 0).sched.state = .waitForFix ∧ readReg .fixLat (noFixIn .waitForFix 0) = 0#32 ∧
    readReg .fixLon (noFixIn .waitForFix 0) = 0#32 ∧
    ∃ s t, exec .ppsEdge s = .next t ∧ Instr.ppsEdge ≠ .schedReset ∧ s.sched.radioCfgd = true :=
  ⟨rfl, by decide, rfl, rfl, rfl, { State.reset with sched := { SchedRegs.reset with radioCfgd := true } }, _, rfl, by decide, rfl⟩

/-- The locator of the vectors' position. -/
def homeLocator : Str6 := ⟨0x43#8, 0x4D#8, 0x38#8, 0x37#8, 0x73#8, 0x73#8⟩

/-- A beacon cycle: minute 18. -/
theorem witness_BeaconCommit :
    (inState .collectTelemetry 121800).sched.state = .collectTelemetry ∧
    ¬((readReg .scfgCtrl (inState .collectTelemetry 121800)).getLsbD 0 = true ∧
      (readReg .fixTime (inState .collectTelemetry 121800)).toNat / 100 % 10 =
        (readReg .scfgTmin (inState .collectTelemetry 121800)).toNat) ∧
    locate (inState .collectTelemetry 121800).fix.lat (inState .collectTelemetry 121800).fix.lon = .ok homeLocator ∧
    ∃ w, wsprEncode (inState .collectTelemetry 121800).scfg.callLo (inState .collectTelemetry 121800).scfg.callHi
      (strLo homeLocator) 10#8 = .ok w :=
  ⟨rfl, by decide, rfl, _, encode_w6nxp (by decide) (by decide)⟩

/-- A telemetry cycle that samples (minute 19, both voltages 0): every function it names answers. -/
theorem witness_TelemetryCommit :
    (inState .collectTelemetry 121900).sched.state = .collectTelemetry ∧
    ((readReg .scfgCtrl (inState .collectTelemetry 121900)).getLsbD 0 = true ∧
      (readReg .fixTime (inState .collectTelemetry 121900)).toNat / 100 % 10 =
        (readReg .scfgTmin (inState .collectTelemetry 121900)).toNat) ∧
    readReg .snapVin (inState .collectTelemetry 121900) = 0#32 ∧ readReg .snapVsol (inState .collectTelemetry 121900) = 0#32 ∧
    locate (sample (fixAt 121900) sensors .reset).lat (sample (fixAt 121900) sensors .reset).lon = .ok homeLocator ∧
    ∃ f w, encCall cfg.chan (half2 homeLocator.c4 homeLocator.c5) (sample (fixAt 121900) sensors .reset).alt = .ok f ∧
      wsprEncode (strLo f.call) (strHi f.call) (encEng (20 : Word) 3500 0 false true).grid
        (encEng (20 : Word) 3500 0 false true).power = .ok w := by
  have hn : normalise (nulTerminated (0x4A305251#32) (0x5356#16)) = .ok ⟨0x51#8, 0x52#8, 0x30#8, 0x4A#8, 0x56#8, 0x53#8⟩ := rfl
  have hg : gridLegal (encEng (20 : Word) 3500 0 false true).grid = true := by decide
  have hp : powerLegal (encEng (20 : Word) 3500 0 false true).power = true := by decide
  have hw : ∃ w, wsprEncode (0x4A305251#32) (0x5356#16) (encEng (20 : Word) 3500 0 false true).grid
      (encEng (20 : Word) 3500 0 false true).power = .ok w := ⟨_, wsprEncode_ok hn hg hp⟩
  obtain ⟨w, hw⟩ := hw
  have hf : encCall cfg.chan (half2 homeLocator.c4 homeLocator.c5) (sample (fixAt 121900) sensors .reset).alt =
      .ok ⟨⟨0x51#8, 0x52#8, 0x30#8, 0x4A#8, 0x56#8, 0x53#8⟩, 481200⟩ := by
    rw [encCall, if_neg (by decide), if_neg (by decide), if_neg (by decide)]
    exact congrArg Except.ok (by decide)
  exact ⟨rfl, by decide, rfl, rfl, rfl, _, w, hf, hw⟩

/-- Each clause: coordinates beyond the range, an altitude beyond it in a telemetry minute, and a build that succeeds. -/
theorem witness_BuildOutcome :
    (inState .collectTelemetry 121900).sched.state = .collectTelemetry ∧ cfgValid (inState .collectTelemetry 121900).scfg = true ∧
    (readReg .scfgCtrl (inState .collectTelemetry 121900)).getLsbD 0 = true ∧
    (readReg .fixTime (inState .collectTelemetry 121900)).toNat / 100 % 10 =
      (readReg .scfgTmin (inState .collectTelemetry 121900)).toNat ∧
    (readReg .fixLat (inState .collectTelemetry 121900)).toInt = 37774900 ∧
    (readReg .fixLon (inState .collectTelemetry 121900)).toInt = -122419400 ∧
    (readReg .fixAlt (inState .collectTelemetry 121900)).toInt = 12000 ∧
    (run1 .schedTick { inState .collectTelemetry 121800 with fix := { fixAt 121800 with lat := 90000001 } }).lastErr =
      some .coordOutOfRange ∧
    (run1 .schedTick { inState .collectTelemetry 121900 with fix := { fixAt 121900 with alt := 21360 } }).lastErr =
      some .altitudeOutOfRange := by decide

theorem witness_TickInWaitForTransmit :
    (inState .waitForTransmit 123159).sched.state = .waitForTransmit ∧
    ¬(readReg .fixLat (inState .waitForTransmit 123159) = 0#32 ∧ readReg .fixLon (inState .waitForTransmit 123159) = 0#32) ∧
    readReg .fixLat (noFixIn .waitForTransmit 123159) = 0#32 ∧ readReg .fixLon (noFixIn .waitForTransmit 123159) = 0#32 := by decide

theorem witness_ArmOnPpsEdge :
    ∃ s : State, Inv s ∧ s.sched.state = .awaitPps ∧ readReg .ppsCount s ≠ readReg .ppsLast s :=
  ⟨_, inv_awaitPps, rfl, by decide⟩

/-- An invariant state in AwaitPps without an edge: the tick that armed nothing. -/
theorem witness_ArmOnPpsEdge_waits : ∃ s : State, Inv s ∧ s.sched.state = .awaitPps ∧ readReg .ppsCount s = readReg .ppsLast s := by
  refine ⟨samplePps 5 (messageIn .awaitPps 0 false false), ?_, rfl, rfl⟩
  obtain ⟨a, b, c, d, e, f, g, i, j, k, l⟩ := inv_awaitPps
  exact ⟨a, b, c, d, e, f, g, i, j, k, l⟩

theorem witness_TickInTransmitting :
    (messageIn .transmitting 162 false false).sched.state = .transmitting ∧
    (readReg .txCursor (messageIn .transmitting 162 false false)).toNat = 162 ∧
    (readReg .txCursor (messageIn .transmitting 161 true true)).toNat ≠ 162 := by decide

theorem witness_Transitions :
    (∃ t, exec .schedTick (inState .init 0) = .next t) ∧ (∃ t, exec .schedTick (inState .waitForTime 11) = .next t) ∧
    (∃ t, exec .toneTick (messageIn .transmitting 0 true false) = .next t) ∧
    ∃ t, exec .nop State.reset = .next t ∧ t.sched.state = .init := ⟨⟨_, rfl⟩, ⟨_, rfl⟩, ⟨_, rfl⟩, _, rfl, rfl⟩

/-- An accepted tone tick at both ends of the cursor's range, and two that are ignored. -/
theorem witness_ToneTickKeysASymbol :
    toneActive (messageIn .transmitting 0 true false).sched = true ∧ toneActive (messageIn .transmitting 161 true true).sched = true ∧
    toneActive (messageIn .transmitting 162 false false).sched = false ∧
    toneActive (messageIn .waitForTransmit 0 true false).sched = false := by decide

theorem witness_ToneOffsetsNeverWrap :
    ∃ s t, Inv s ∧ s.sched.toneRun = true ∧ exec .toneTick s = .next t := ⟨_, _, inv_transmitting, rfl, rfl⟩

theorem witness_WholeMessage :
    (messageIn .transmitting 0 true false).sched.state = .transmitting ∧ (messageIn .transmitting 0 true false).sched.toneRun = true ∧
    (messageIn .transmitting 0 true false).sched.cursor = 0 := ⟨rfl, rfl, rfl⟩

theorem witness_SchedulerLiveness :
    let s := inState .init 123159
    s.sched.state = .init ∧ cfgValid s.scfg = true ∧ 10 < s.fix.time.toNat ∧ 0 < s.fix.sats.toNat ∧ s.fix.lat ≠ 0#32 ∧
    coordsInRange s.fix.lat.toInt s.fix.lon.toInt = true ∧ altitudeLegal s.fix.alt.toInt = true ∧
    coordsInRange s.snap.lat.toInt s.snap.lon.toInt = true ∧ altitudeLegal s.snap.alt.toInt = true ∧
    s.fix.time.toNat / 100 % 100 % 2 = 1 ∧ s.fix.time.toNat % 100 = 59 := by decide

theorem witness_MessageIsFrozen :
    ∃ s t : State, messageState s.sched.state = true ∧ s.sched.state = .transmitting ∧ (∀ b rest, s.pending ≠ .rst b :: rest) ∧
      (∀ rest, s.pending ≠ .write 0x004#12 4 0x1F#32 :: rest) ∧ step s = .next t :=
  ⟨(messageIn .transmitting 40 true true).setPending [.write 0x004#12 4 0x02#32], _, rfl, rfl, by simp [State.setPending],
    by simp [State.setPending], rfl⟩

theorem witness_UnitsAreIsolated :
    Instr.schedReset ∈ [Instr.schedTick, .toneTick, .ppsEdge, .schedReset] ∧ (∃ t, exec .schedReset State.reset = .next t) ∧
    Instr.u4bDecEng ∈ [Instr.locate, .wsprEncode, .u4bEncCall, .u4bEncEng, .u4bDecCall, .u4bDecEng] ∧
    ∃ t, exec .u4bDecEng (decEngOperands ['A', 'A', '0', '0'] 37) = .next t := ⟨by decide, ⟨_, rfl⟩, by decide, _, rfl⟩

theorem witness_TickToneRace :
    (messageIn .transmitting 161 true true).sched.state = .transmitting ∧
    (messageIn .transmitting 161 true true).sched.cursor.toNat < 162 ∧ (messageIn .transmitting 161 true true).sched.cursor = 161 ∧
    (messageIn .transmitting 161 true true).sched.toneRun = true := by decide

theorem witness_EdgeOrderDoesNotMatter :
    Interleaving (List.replicate 1 Instr.ppsEdge) (List.replicate 2 .toneTick) [.toneTick, .ppsEdge, .toneTick] :=
  .right _ (.left _ (.right _ .nil))

end Sys2Proof.Tests
end

section
/-! Accesses with `rst` released that are access errors, read and write (20_memory.md R72 to R74, 60_exceptions.md R314), and
the proof of O11. -/

namespace Sys2Proof.Machine

/-! ### Delivering an access -/

/-- With `rst` released, a host read takes effect as `memRead`. -/
theorem deliver_read {s : State} (hr : s.inReset = false) (off : Offset) (width : Nat) :
    deliver (.read off width) s = .next (memRead off width s) := by
  simp [deliver, hr, acceptInput]

/-- With `rst` released, a host write takes effect as `memWrite`. -/
theorem deliver_write {s : State} (hr : s.inReset = false) (off : Offset) (width : Nat) (v : Word) :
    deliver (.write off width v) s = memWrite off width v s := by
  simp [deliver, hr, acceptInput]

/-! ### Accesses that reach no register -/

/-- An access is aligned exactly when it is 4 bytes wide at a multiple of 4 (20_memory.md R72, R73). -/
theorem accessAligned_iff (off : Offset) (width : Nat) :
    accessAligned off width = true ↔ off.toNat % 4 = 0 ∧ width = 4 := by
  simp [accessAligned, and_comm]

/-- A bad access that is aligned is unmapped: its offset holds no register (20_memory.md R72 to R74). -/
theorem regAt_none_of_badAccess {off : Offset} {width : Nat}
    (h : off.toNat % 4 ≠ 0 ∨ width ≠ 4 ∨ ∀ r : Reg, regOffset r ≠ off) (ha : accessAligned off width = true) :
    regAt off = none := by
  obtain ⟨hoff, hwidth⟩ := (accessAligned_iff off width).mp ha
  obtain h | h | h := h
  · exact absurd hoff h
  · exact absurd hwidth h
  · exact (regAt_none_iff off).mpr h

/-- A read that reaches no register returns 0 with ACCESS_ERR set (20_memory.md R74, 60_exceptions.md R314). -/
theorem memRead_of_noRegister {off : Offset} {width : Nat} (h : accessAligned off width = true → regAt off = none) (s : State) :
    memRead off width s = returnValue 0 (accessError s) := by
  unfold memRead
  by_cases ha : accessAligned off width = true
  · simp [ha, h ha]
  · simp [ha]

/-- A write that reaches no register sets ACCESS_ERR (20_memory.md R74, 60_exceptions.md R314). -/
theorem memWrite_of_noRegister {off : Offset} {width : Nat} (h : accessAligned off width = true → regAt off = none)
    (v : Word) (s : State) : memWrite off width v s = .next (accessError s) := by
  unfold memWrite
  by_cases ha : accessAligned off width = true
  · simp [ha, h ha]
  · simp [ha]

/-! ### Writes the register refuses -/

/-- A write to an RO register is an access error (20_memory.md R74). -/
theorem writeRegister_ro {r : Reg} (h : regAccess r = .ro) (v : Word) (s : State) :
    writeRegister r v s = .next (accessError s) := by
  simp [writeRegister, h]

/-- A write to an L register outside Init is an access error (20_memory.md R74, 43_scheduler.md R246). -/
theorem writeRegister_locked_of_ne_init {r : Reg} {s : State} (h : regAccess r = .locked) (hs : s.sched.state ≠ .init) (v : Word) :
    writeRegister r v s = .next (accessError s) := by
  simp [writeRegister, h, hs]

/-! ### The obligation -/

/-- Settles O11: a bad access fails one of the window's two checks (alignment, then lookup) and so reaches no register, and a register
of access RO, or L outside Init, answers a write by an access error; `accessError` and `returnValue` are the two field updates the statement writes out. -/
theorem badAccessesSetAccessErr : Obligations.BadAccessesSetAccessErr := by
  unfold Obligations.BadAccessesSetAccessErr
  constructor
  · intro s off width v hr hbad
    have hnone := regAt_none_of_badAccess hbad
    constructor
    · rw [deliver_read hr, memRead_of_noRegister hnone]
      rfl
    · rw [deliver_write hr, memWrite_of_noRegister hnone]
      rfl
  · intro s r v hr hrefuse
    rw [deliver_write hr, memWrite_regOffset]
    obtain hro | ⟨hlocked, hstate⟩ := hrefuse
    · exact writeRegister_ro hro v s
    · exact writeRegister_locked_of_ne_init hlocked hstate v

end Sys2Proof.Machine
end

section
/-! Command words: which command a word selects, the words that select none, and what those do when written to CMD
(30_encoding.md R90 to R92, 60_exceptions.md R310), with the proofs of O7 and O8. -/

namespace Sys2Proof.Machine

/-! ### The opcode map and the encoder -/

/-- The family of per-command encoding laws, gathered over all commands. -/
theorem encodeDecode_statement (i : Instr) : Laws.EncodeDecode.Statement i := by
  cases i with
  | nop => exact Laws.EncodeDecode.nop
  | locate => exact Laws.EncodeDecode.locate
  | wsprEncode => exact Laws.EncodeDecode.wsprEncode
  | u4bEncCall => exact Laws.EncodeDecode.u4bEncCall
  | u4bEncEng => exact Laws.EncodeDecode.u4bEncEng
  | u4bDecCall => exact Laws.EncodeDecode.u4bDecCall
  | u4bDecEng => exact Laws.EncodeDecode.u4bDecEng
  | schedTick => exact Laws.EncodeDecode.schedTick
  | toneTick => exact Laws.EncodeDecode.toneTick
  | ppsEdge => exact Laws.EncodeDecode.ppsEdge
  | schedReset => exact Laws.EncodeDecode.schedReset

/-- A command's word decodes to the command (30_encoding.md R91). -/
@[simp] theorem decode_encode (i : Instr) : decode (encode i) = .ok i := by
  obtain ⟨-, -, hdecode, -⟩ := encodeDecode_statement i
  exact hdecode

/-- A command's word is none that R92 calls illegal. -/
theorem commandWordWellFormed_encode (i : Instr) : commandWordWellFormed (encode i) = true := by
  obtain ⟨-, hword, -, -⟩ := encodeDecode_statement i
  exact hword

/-- Every row of the opcode map compares all 32 bits with its own command's word (30_encoding.md R91). -/
theorem opcodeTable_row {r : OpcodeRow} (h : r ∈ opcodeTable) : r.mask = BitVec.allOnes 32 ∧ r.pattern = encode r.instr := by
  revert r
  decide

/-- A row of the opcode map selects exactly its command's word (30_encoding.md R91). -/
theorem rowSelects_iff {r : OpcodeRow} (h : r ∈ opcodeTable) (w : Word) : rowSelects r w = true ↔ w = encode r.instr := by
  obtain ⟨hmask, hpattern⟩ := opcodeTable_row h
  rw [rowSelects, beq_iff_eq, hmask, hpattern, BitVec.and_allOnes]

/-- A word that decodes to a command is selected by a row of the opcode map that names the command. -/
theorem exists_row_of_decode {w : Word} {i : Instr} (h : decode w = .ok i) :
    ∃ r ∈ opcodeTable, rowSelects r w = true ∧ r.instr = i := by
  unfold decode at h
  split at h
  next r hfind =>
    exact ⟨r, List.mem_of_find?_eq_some hfind, by simpa using List.find?_some hfind, Except.ok.inj h⟩
  next => cases h

/-- A word selects a command exactly when it is the command's word (30_encoding.md R91). -/
theorem decode_eq_ok_iff (w : Word) (i : Instr) : decode w = .ok i ↔ w = encode i := by
  constructor
  · intro h
    obtain ⟨r, hr, hsel, rfl⟩ := exists_row_of_decode h
    exact (rowSelects_iff hr w).mp hsel
  · rintro rfl
    exact decode_encode i

/-- Settles O7: each row of the opcode map compares all 32 bits with its command's word, so a word is selected by no other; the eleven
words are read off the encoder. -/
theorem commandMap : Obligations.CommandMap := by
  unfold Obligations.CommandMap
  exact ⟨decode_eq_ok_iff, rfl, rfl, rfl, rfl, rfl, rfl, rfl, rfl, rfl, rfl, rfl⟩

/-! ### Running a command word -/

/-- A command's word runs the command (30_encoding.md R90). -/
@[simp] theorem runCommandWord_encode (i : Instr) (s : State) : runCommandWord (encode i) s = exec i s := by
  simp [runCommandWord]

/-- A word that selects no command raises IllegalCommand (30_encoding.md R92). -/
theorem runCommandWord_of_ne_encode {w : Word} (h : ∀ i, w ≠ encode i) (s : State) :
    runCommandWord w s = .next (raiseError .illegalCommand s) := by
  unfold runCommandWord
  cases hd : decode w with
  | ok i => exact absurd ((decode_eq_ok_iff w i).mp hd) (h i)
  | error e => rfl

/-- The check on command words refuses exactly the words R92 lists: a bit in [31:8], or OPC in an unassigned range. -/
theorem commandWordWellFormed_eq_false_iff (w : Word) :
    commandWordWellFormed w = false ↔
      w.toNat / 256 ≠ 0 ∨ (0x07 ≤ w.toNat % 256 ∧ w.toNat % 256 ≤ 0x0F) ∨ (0x13 ≤ w.toNat % 256 ∧ w.toNat % 256 ≤ 0x1E) ∨
        0x20 ≤ w.toNat % 256 := by
  have hupper : upperBitsClear w = true ↔ w.toNat / 256 = 0 := by
    simp only [upperBitsClear, beq_iff_eq, ← BitVec.toNat_inj, BitVec.extractLsb'_toNat, Nat.shiftRight_eq_div_pow,
      BitVec.toNat_ofNat]
    omega
  have hopc : opcodeAssigned w = true ↔ ¬ ((0x07 ≤ w.toNat % 256 ∧ w.toNat % 256 ≤ 0x0F) ∨
      (0x13 ≤ w.toNat % 256 ∧ w.toNat % 256 ≤ 0x1E) ∨ 0x20 ≤ w.toNat % 256) := by
    simp only [opcodeAssigned, BitVec.extractLsb'_toNat, Nat.shiftRight_zero, Bool.not_eq_true', Bool.or_eq_false_iff,
      Bool.and_eq_false_iff, decide_eq_false_iff_not]
    omega
  rw [commandWordWellFormed, ← Bool.not_eq_true, Bool.and_eq_true, hupper, hopc, not_and_or, not_not]

/-- A word R92 calls illegal is no command's word. -/
theorem ne_encode_of_not_wellFormed {w : Word} (h : commandWordWellFormed w = false) (i : Instr) : w ≠ encode i := by
  rintro rfl
  rw [commandWordWellFormed_encode] at h
  cases h

/-- An illegal word written to CMD raises IllegalCommand, whatever the state (30_encoding.md R92). -/
theorem deliver_illegalCommandWord {s : State} (hr : s.inReset = false) {w : Word} (h : commandWordWellFormed w = false) :
    deliver (commandInput w) s = .next (raiseError .illegalCommand s) := by
  rw [deliver_commandInput hr, runCommandWord_of_ne_encode (ne_encode_of_not_wellFormed h)]

/-! ### NOP, and why no other command is one -/

/-- NOP leaves every register but STATUS as it was (43_scheduler.md R285). -/
theorem readReg_exec_nop {s t : State} (h : exec .nop s = .next t) {r : Reg} (hr : r ≠ .status) : readReg r t = readReg r s := by
  cases h
  exact readReg_setLastErr hr s none

/-- A state in which every command but NOP has something to write: legal operands for each codec command, and a message in flight
with one second edge counted since the last tick. -/
def busyState : State :=
  { State.reset with
    codec := { CodecRegs.reset with
      callLo := 0x584E3657#32, callHi := 0x0050#16, grid := 0x37384D43#32, power := 10#8
      chan := 0x3051#16, subsq := 0x7373#16
      ucallLo := 0x41304130#32, ucallHi := 0x4141#16, ugrid := 0x30304141#32, upower := 3#8 }
    sched := { SchedRegs.reset with state := .transmitting, toneRun := true, ppsCount := 1 } }

/-- A register each command but NOP changes from `busyState`. -/
def changedReg : Instr → Reg
  | .nop => .status
  | .locate => .locLo
  | .wsprEncode => .packN
  | .u4bEncCall => .ucallLo
  | .u4bEncEng => .ugrid
  | .u4bDecCall => .dchan
  | .u4bDecEng => .dvolt
  | .schedTick => .ppsLast
  | .toneTick => .txCursor
  | .ppsEdge => .ppsCount
  | .schedReset => .ppsCount

/-- From `busyState` every command but NOP changes the register `changedReg` names. -/
theorem exec_busyState_changes {i : Instr} (h : i ≠ .nop) :
    changedReg i ≠ .status ∧
      ∃ t, exec i busyState = .next t ∧ readReg (changedReg i) t ≠ readReg (changedReg i) busyState := by
  cases i
  case nop => exact absurd rfl h
  all_goals exact ⟨by decide, _, rfl, by decide⟩

/-- Settles O8: a word of R92's list fails the check every command's word passes, so it selects no command; NOP only clears LAST_ERR,
and `busyState` is where each other command changes a register. -/
theorem illegalCommandWords : Obligations.IllegalCommandWords := by
  unfold Obligations.IllegalCommandWords
  constructor
  · intro s w hr hw
    exact deliver_illegalCommandWord hr ((commandWordWellFormed_eq_false_iff w).mpr hw)
  · intro i
    constructor
    · rintro rfl s t h r hr
      exact readReg_exec_nop h hr
    · intro hframe
      by_contra hi
      obtain ⟨hreg, t, ht, hne⟩ := exec_busyState_changes hi
      exact hne (hframe busyState t ht _ hreg)

end Sys2Proof.Machine
end

section
/-! Pin edges: an edge is the command write of its opcode, and a run of edges counts them all (30_encoding.md R101), with the proof
of O9. -/

namespace Sys2Proof.Machine

/-! ### An edge is a command write -/

/-- With `rst` asserted an input does what `inputInReset` says (70_reset_and_hazards.md R340). -/
theorem deliver_inReset {s : State} (hr : s.inReset = true) (i : Input) : deliver i s = .next (inputInReset i s) := by
  simp [deliver, hr]

/-- An input that is lost while `rst` is asserted and otherwise runs a command does what a write of the command's word to CMD does. -/
theorem deliver_eq_commandInput {e : Input} {i : Instr} {s : State} (hlost : inputInReset e s = s)
    (hruns : acceptInput e s = exec i s) : deliver e s = deliver (commandInput (encode i)) s := by
  cases hr : s.inReset with
  | true =>
    rw [deliver_inReset hr, deliver_inReset hr, hlost]
    rfl
  | false =>
    rw [deliver_commandInput hr, runCommandWord_encode]
    simpa [deliver, hr] using hruns

/-- An edge on `pps_in` is a write of PPS_EDGE to CMD (30_encoding.md R101). -/
theorem deliver_ppsIn_eq (s : State) : deliver .ppsIn s = deliver (commandInput (encode .ppsEdge)) s :=
  deliver_eq_commandInput rfl rfl

/-- An edge on `tone_tick_in` is a write of TONE_TICK to CMD (30_encoding.md R101). -/
theorem deliver_toneTickIn_eq (s : State) : deliver .toneTickIn s = deliver (commandInput (encode .toneTick)) s :=
  deliver_eq_commandInput rfl rfl

/-! ### Runs of edges -/

/-- A run whose first step answers `t` goes on from `t`. -/
theorem run_succ_of_step {M : Host.Core} {s t : M.State} (h : M.step s = .next t) (k : Nat) : M.run (k + 1) s = M.run k t := by
  simp [Host.Core.run, h]

/-- A step on a PPS edge uses up the edge and counts it (30_encoding.md R101, 43_scheduler.md R283). -/
theorem step_ppsIn {s : State} {rest : List Input} (hr : s.inReset = false) (hp : s.pending = .ppsIn :: rest) :
    ∃ t, step s = .next t ∧ t.inReset = false ∧ t.pending = rest ∧ t.sched.ppsCount = s.sched.ppsCount + 1 := by
  have hrest : (s.setPending rest).inReset = false := hr
  rw [step_cons hp, deliver_ppsIn_eq, deliver_commandInput hrest, runCommandWord_encode]
  exact ⟨_, rfl, hr, rfl, rfl⟩

/-- `n` PPS edges, one after the other, add `n` to PPS_COUNT and use up just those inputs (30_encoding.md R101). -/
theorem run_ppsIn (n : Nat) (s : State) (rest : List Input) (hr : s.inReset = false)
    (hp : s.pending = List.replicate n .ppsIn ++ rest) :
    ∃ t : State, Host.Core.run Sys2Proof.core n s = .next t ∧ t.pending = rest ∧
      t.sched.ppsCount = s.sched.ppsCount + BitVec.ofNat 32 n := by
  induction n generalizing s with
  | zero => exact ⟨s, rfl, by simpa using hp, by simp⟩
  | succ n ih =>
    obtain ⟨u, hstep, hur, hup, hucount⟩ := step_ppsIn hr hp
    obtain ⟨t, hrun, hpending, hcount⟩ := ih u hur hup
    refine ⟨t, (run_succ_of_step (M := Sys2Proof.core) hstep n).trans hrun, hpending, ?_⟩
    calc t.sched.ppsCount
        = s.sched.ppsCount + 1 + BitVec.ofNat 32 n := by rw [hcount, hucount]
      _ = s.sched.ppsCount + BitVec.ofNat 32 (n + 1) := by
        rw [BitVec.ofNat_add, BitVec.add_assoc, BitVec.add_comm (BitVec.ofNat 32 n)]
        rfl

/-- Settles O9: with `rst` asserted both inputs are lost and with `rst` released both run the same command, so an edge is delivered
as the command write; the edges of a run are counted one by one, by induction on their number. -/
theorem pinEdgesAreCommands : Obligations.PinEdgesAreCommands := by
  unfold Obligations.PinEdgesAreCommands
  refine ⟨fun s rest => ⟨?_, ?_⟩, run_ppsIn⟩
  · exact deliver_ppsIn_eq (s.setPending rest)
  · exact deliver_toneTickIn_eq (s.setPending rest)

end Sys2Proof.Machine
end

section
/-! LOCATE: the coordinates it accepts, the characters it computes as numbers, and the two states it can end in (40_locator.md R121
to R126), with the proof of O23. -/

namespace Sys2Proof.Machine

/-! ### The frame of a result written to the codec registers -/

/-- A write of codec registers that spares every register outside `dests` keeps the frame of a command. -/
theorem commandFrame_setCodec {dests : List Reg} {s : State} {x : CodecRegs} (h : readsSameBut dests s (s.setCodec x)) :
    CommandFrame dests s (s.setCodec x) :=
  ⟨h, ⟨rfl, rfl, rfl, rfl⟩, ⟨rfl, rfl, rfl⟩⟩

/-- The characters of a 2-character register are in the same lanes of the 32-bit word it reads as (30_encoding.md R93). -/
theorem lane_setWidth (w : BitVec 16) {i : Nat} (hi : i < 2) : lane (w.setWidth 32) i = lane w i := by
  apply BitVec.eq_of_getLsbD_eq
  intro j hj
  simp [lane, hj, show 8 * i + j < 32 by omega]

/-- A 2-character register reads as a word whose upper half is 0 (10_state.md R20). -/
theorem toNat_setWidth_lt (w : BitVec 16) : (w.setWidth 32).toNat < 65536 := by
  rw [BitVec.toNat_setWidth_of_le (by decide)]
  exact w.isLt

/-! ### Coordinates and characters -/

/-- The range check is R121's four bounds. -/
theorem coordsInRange_iff (lat lon : Int) :
    coordsInRange lat lon = true ↔ -90000000 ≤ lat ∧ lat ≤ 90000000 ∧ -180000000 ≤ lon ∧ lon ≤ 180000000 := by
  simp [coordsInRange, and_assoc]

/-- X as an integer, from the lower bound up (40_locator.md R122). -/
theorem shiftLon_cast {lon : Int} (h : -180000000 ≤ lon) : (shiftLon lon : Int) = min (lon + 180000000) 359999999 :=
  Int.toNat_of_nonneg (by omega)

/-- Y as an integer, from the lower bound up (40_locator.md R122). -/
theorem shiftLat_cast {lat : Int} (h : -90000000 ≤ lat) : (shiftLat lat : Int) = min (lat + 90000000) 179999999 :=
  Int.toNat_of_nonneg (by omega)

/-- The codes of the field letters: the quotients are below 18, so no letter wraps (40_locator.md R123). -/
theorem toNat_locatorChars_field {x y : Nat} (hx : x < 360000000) (hy : y < 180000000) :
    (locatorChars x y).c0.toNat = 65 + x / 20000000 ∧ (locatorChars x y).c1.toNat = 65 + y / 10000000 :=
  ⟨toNat_chrPlus (c := 'A') (by simp; omega), toNat_chrPlus (c := 'A') (by simp; omega)⟩

/-- The codes of the square digits, which are below 10 (40_locator.md R124). -/
theorem toNat_locatorChars_square (x y : Nat) :
    (locatorChars x y).c2.toNat = 48 + x % 20000000 / 2000000 ∧ (locatorChars x y).c3.toNat = 48 + y % 10000000 / 1000000 :=
  ⟨toNat_chrPlus (c := '0') (by simp; omega), toNat_chrPlus (c := '0') (by simp; omega)⟩

/-- The codes of the subsquare letters, whose indices are below 24 (40_locator.md R125). -/
theorem toNat_locatorChars_subsquare (x y : Nat) :
    (locatorChars x y).c4.toNat = 97 + x % 2000000 * 12 / 1000000 ∧
      (locatorChars x y).c5.toNat = 97 + y % 1000000 * 24 / 1000000 :=
  ⟨toNat_chrPlus (c := 'a') (by simp; omega), toNat_chrPlus (c := 'a') (by simp; omega)⟩

/-! ### Writing the locator -/

/-- Writing a locator changes LOC_LO and LOC_HI alone (40_locator.md R126). -/
theorem readsSameBut_writeLocator (loc : Str6) (s : State) : readsSameBut [.locLo, .locHi] s (writeLocator loc s) := by
  intro r hr _
  cases r
  case locLo => simp at hr
  case locHi => simp at hr
  all_goals rfl

/-- LOC_LO after a LOCATE that wrote a locator: characters 0-3 (40_locator.md R126). -/
theorem readReg_locLo_succeed_writeLocator (loc : Str6) (s : State) :
    readReg .locLo (succeed (writeLocator loc s)) = word4 loc.c0 loc.c1 loc.c2 loc.c3 := rfl

/-- LOC_HI after a LOCATE that wrote a locator: characters 4-5 in its lower half (40_locator.md R126). -/
theorem readReg_locHi_succeed_writeLocator (loc : Str6) (s : State) :
    readReg .locHi (succeed (writeLocator loc s)) = (half2 loc.c4 loc.c5).setWidth 32 := rfl

/-! ### The two ends of LOCATE -/

/-- LOCATE ends as its unit's answer says (40_locator.md R120). -/
theorem exec_locate (s : State) :
    exec .locate s = .next (complete s ((locate s.codec.lat s.codec.lon).map fun loc => writeLocator loc s)) := rfl

/-- A position out of range has no locator (40_locator.md R121). -/
theorem locate_error {lat lon : Word} (h : ¬ coordsInRange lat.toInt lon.toInt = true) :
    locate lat lon = .error .coordOutOfRange := by
  simp [locate, h]

/-- LOCATE on a position in range writes the locator of X and Y and clears LAST_ERR (40_locator.md R120, R126). -/
theorem exec_locate_of_inRange {s : State} (h : coordsInRange s.codec.lat.toInt s.codec.lon.toInt = true) :
    exec .locate s = .next (succeed (writeLocator
      (locatorChars (shiftLon s.codec.lon.toInt) (shiftLat s.codec.lat.toInt)) s)) := by
  rw [exec_locate, locate_ok h]
  rfl

/-- LOCATE on a position out of range raises CoordOutOfRange (40_locator.md R121). -/
theorem exec_locate_of_outOfRange {s : State} (h : ¬ coordsInRange s.codec.lat.toInt s.codec.lon.toInt = true) :
    exec .locate s = .next (raiseError .coordOutOfRange s) := by
  rw [exec_locate, locate_error h]
  rfl

/-- LOCATE on any position keeps every register but LOC_LO, LOC_HI and STATUS.LAST_ERR, and emits no event (40_locator.md R126). -/
theorem exec_locate_frame {s t : State} (h : exec .locate s = .next t) :
    CommandFrame [.locLo, .locHi] s t ∧ t.trace = s.trace := by
  rw [exec_locate] at h
  cases h
  apply complete_frame
  intro u hu
  cases hloc : locate s.codec.lat s.codec.lon with
  | error e => simp [hloc, Except.map] at hu
  | ok loc =>
    obtain rfl : writeLocator loc s = u := by simpa [hloc, Except.map] using hu
    exact ⟨commandFrame_setCodec (readsSameBut_writeLocator loc s), rfl⟩

/-- Settles O23: the range check decides between the two ends of LOCATE. In range, X and Y are the saturated sums and below their
bounds, so each character's code is its formula without wrapping; out of range, raising the error is the one update. -/
theorem locateResult : Obligations.LocateResult := by
  unfold Obligations.LocateResult
  intro s
  constructor
  · intro hrange
    have hin : coordsInRange s.codec.lat.toInt s.codec.lon.toInt = true := (coordsInRange_iff _ _).mpr hrange
    obtain ⟨hlat, -, hlon, -⟩ := (coordsInRange_iff _ _).mp hin
    have hexec := exec_locate_of_inRange hin
    obtain ⟨hframe, htrace⟩ := exec_locate_frame hexec
    obtain ⟨hx, hy⟩ := shift_lt hin
    obtain ⟨h0, h1⟩ := toNat_locatorChars_field hx hy
    obtain ⟨h2, h3⟩ := toNat_locatorChars_square (shiftLon s.codec.lon.toInt) (shiftLat s.codec.lat.toInt)
    obtain ⟨h4, h5⟩ := toNat_locatorChars_subsquare (shiftLon s.codec.lon.toInt) (shiftLat s.codec.lat.toInt)
    refine ⟨_, hexec, rfl, htrace, hframe, ?_⟩
    simp only [readReg_locLo_succeed_writeLocator, readReg_locHi_succeed_writeLocator, lane_word4_0, lane_word4_1,
      lane_word4_2, lane_word4_3, lane_setWidth _ Nat.zero_lt_two, lane_setWidth _ Nat.one_lt_two, lane_half2_0, lane_half2_1,
      h0, h1, h2, h3, h4, h5, Nat.cast_add, Nat.cast_mul, Int.natCast_ediv, Int.natCast_emod, Nat.cast_ofNat,
      shiftLon_cast hlon, shiftLat_cast hlat]
    exact ⟨rfl, rfl, rfl, rfl, rfl, rfl, toNat_setWidth_lt _⟩
  · intro hrange
    exact exec_locate_of_outOfRange fun h => hrange ((coordsInRange_iff _ _).mp h)

end Sys2Proof.Machine
end

section
/-! Normalisation: the digit search, the padding and the class check as equivalences (41_wspr_encoder.md R142, R143), with the
proof of O25. -/

namespace Sys2Proof.Machine

/-- The digit search answers k exactly when R142 gives the padding count k (41_wspr_encoder.md R142). -/
theorem padCount_eq_some_iff (orig : List Byte) (k : Nat) :
    padCount orig = some k ↔
      (k = 0 ∧ ∃ c, orig[2]? = some c ∧ isDigit c = true) ∨
      (k = 1 ∧ (¬ ∃ c, orig[2]? = some c ∧ isDigit c = true) ∧ ∃ c, orig[1]? = some c ∧ isDigit c = true) := by
  simp only [padCount, ← Option.any_eq_true]
  split
  · next h2 => simp [h2, @eq_comm _ k]
  · next h2 =>
    split
    · next h1 => simp [h1, h2, @eq_comm _ k]
    · next h1 => simp [h1, h2, @eq_comm _ k]

/-- The six characters determine the string. -/
theorem strChars_injective : Function.Injective strChars := by
  intro s t h
  cases s; cases t
  simpa [strChars] using h

/-- Padding fills the characters after the given ones with spaces (41_wspr_encoder.md R142). -/
theorem strChars_padRight {p : List Byte} (h : p.length ≤ 6) :
    strChars (padRight p) = p ++ List.replicate (6 - p.length) chSpace := by
  have hmap : strChars (padRight p) = (List.range 6).map (p.getD · chSpace) := rfl
  rw [hmap]
  apply List.ext_getElem
  · simp [h]
  · intro i _ _
    by_cases hi : i < p.length
    · simp [hi]
    · simp [hi, Nat.le_of_not_lt hi]

/-- A string is p padded exactly when its characters are those of p, then spaces (41_wspr_encoder.md R142). -/
theorem eq_padRight_iff {p : List Byte} (h : p.length ≤ 6) (n : Str6) :
    n = padRight p ↔ strChars n = p ++ List.replicate (6 - p.length) chSpace := by
  rw [← strChars_padRight h]
  exact strChars_injective.eq_iff.symm

/-- Normalisation answers n exactly when the digit search, the length check and the class check pass with n the padded original
(41_wspr_encoder.md R142, R143). -/
theorem normalise_eq_ok_iff (orig : List Byte) (n : Str6) :
    normalise orig = .ok n ↔ ∃ k, padCount orig = some k ∧ (List.replicate k chSpace ++ orig).length ≤ 6 ∧
      n = padRight (List.replicate k chSpace ++ orig) ∧ callClassesLegal n = true := by
  constructor
  · exact normalise_ok
  · rintro ⟨k, hk, hlen, rfl, hc⟩
    simp only [normalise, hk, if_neg (Nat.not_lt.mpr hlen), if_pos hc]

/-- The class check is R143's table, position by position. -/
theorem callClassesLegal_iff (s : Str6) :
    callClassesLegal s = true ↔
      (isDigit s.c0 = true ∨ isUpper s.c0 = true ∨ s.c0 = 0x20#8) ∧ (isDigit s.c1 = true ∨ isUpper s.c1 = true) ∧
      isDigit s.c2 = true ∧ (isUpper s.c3 = true ∨ s.c3 = 0x20#8) ∧ (isUpper s.c4 = true ∨ s.c4 = 0x20#8) ∧
      (isUpper s.c5 = true ∨ s.c5 = 0x20#8) := by
  simp [callClassesLegal, chSpace, and_assoc, or_assoc]

/-- Settles O25: the digit search, the padding and the class check each have their own equivalence, with the padding
count k shared. -/
theorem callsignNormalisation : Obligations.CallsignNormalisation := by
  unfold Obligations.CallsignNormalisation
  intro orig
  refine ⟨fun n => ?_, fun e => normalise_error⟩
  rw [normalise_eq_ok_iff]
  refine exists_congr fun k => ?_
  rw [padCount_eq_some_iff, callClassesLegal_iff]
  refine and_congr_right fun _ => ?_
  have hlength : (List.replicate k chSpace ++ orig).length = k + orig.length := by simp
  rw [← hlength]
  refine and_congr_right fun hlen => ?_
  rw [eq_padRight_iff hlen]
  rfl

end Sys2Proof.Machine
end

section
/-! The packed fields: N, G and M over the integers, their ranges, and the registers that hold them (41_wspr_encoder.md R144 to
R149), with the proof of O27. -/

namespace Sys2Proof.Machine

/-- A character's value as R144 writes it over the integers, for every byte (41_wspr_encoder.md R144). -/
theorem callVal_cast (c : Byte) :
    (callVal c : Int) = if 0x30 ≤ c.toNat ∧ c.toNat ≤ 0x39 then (c.toNat : Int) - 0x30
      else if 0x41 ≤ c.toNat ∧ c.toNat ≤ 0x5A then (c.toNat : Int) - 0x41 + 10 else 36 := by
  simp only [callVal, isDigit, isUpper, Bool.and_eq_true, decide_eq_true_eq, digitVal, upperVal]
  split
  · omega
  · split <;> omega

/-- N as an integer: the suffix characters of a legal callsign are worth at least 10, so no subtraction stops at 0
(41_wspr_encoder.md R144). -/
theorem packCall_cast {s : Str6} (hc : callClassesLegal s = true) :
    (packCall s : Int) = (((((callVal s.c0 : Int) * 36 + callVal s.c1) * 10 + callVal s.c2) * 27 + (callVal s.c3 - 10)) * 27 +
        (callVal s.c4 - 10)) * 27 + (callVal s.c5 - 10) := by
  simp only [callClassesLegal, Bool.and_eq_true] at hc
  obtain ⟨⟨⟨-, h3⟩, h4⟩, h5⟩ := hc
  have := callVal_suffix h3
  have := callVal_suffix h4
  have := callVal_suffix h5
  simp only [packCall]
  omega

/-- N's maximum, 37 * 36 * 10 * 27^3 - 1 (41_wspr_encoder.md R145). -/
theorem packCall_le {s : Str6} (hc : callClassesLegal s = true) : packCall s ≤ 262177559 := by
  simp only [callClassesLegal, Bool.and_eq_true] at hc
  obtain ⟨⟨⟨⟨⟨-, h1⟩, h2⟩, h3⟩, h4⟩, h5⟩ := hc
  have := callVal_le s.c0
  have := callVal_le_35 h1
  have := callVal_le_9 h2
  have := callVal_suffix h3
  have := callVal_suffix h4
  have := callVal_suffix h5
  simp only [packCall]
  omega

/-- The grid check is R146's four ranges. -/
theorem gridLegal_iff (g : Word) :
    gridLegal g = true ↔
      (0x41 ≤ (lane g 0).toNat ∧ (lane g 0).toNat ≤ 0x52) ∧ (0x41 ≤ (lane g 1).toNat ∧ (lane g 1).toNat ≤ 0x52) ∧
      (0x30 ≤ (lane g 2).toNat ∧ (lane g 2).toNat ≤ 0x39) ∧ (0x30 ≤ (lane g 3).toNat ∧ (lane g 3).toNat ≤ 0x39) := by
  simp only [gridLegal, isField, isDigit, Bool.and_eq_true, decide_eq_true_eq, and_assoc]

/-- G as an integer: on a legal grid the parenthesis does not go below 0 (41_wspr_encoder.md R147). -/
theorem packGrid_cast {g : Word} (h : gridLegal g = true) :
    (packGrid g : Int) = (179 - 10 * (((lane g 0).toNat : Int) - 0x41) - (((lane g 2).toNat : Int) - 0x30)) * 180 +
      10 * (((lane g 1).toNat : Int) - 0x41) + (((lane g 3).toNat : Int) - 0x30) := by
  have := (gridLegal_iff g).mp h
  simp only [packGrid, upperVal, digitVal]
  omega

/-- G's maximum, that of AR09 (41_wspr_encoder.md R147). -/
theorem packGrid_le {g : Word} (h : gridLegal g = true) : packGrid g ≤ 32399 := by
  have := (gridLegal_iff g).mp h
  simp only [packGrid, upperVal, digitVal]
  omega

/-- M's maximum, at G's maximum and 60 dBm (41_wspr_encoder.md R149). -/
theorem packPower_le {g : Nat} {p : Byte} (hg : g ≤ 32399) (hp : powerLegal p = true) : packPower g p ≤ 4147196 := by
  simp only [powerLegal, Bool.and_eq_true, decide_eq_true_eq] at hp
  simp only [packPower]
  omega

/-- An encoded message has legal operands and the results of a callsign in the legal classes (41_wspr_encoder.md R140). -/
theorem wsprEncode_eq_ok {lo : Word} {hi : BitVec 16} {grid : Word} {power : Byte} {w : WencRegs}
    (h : wsprEncode lo hi grid power = .ok w) :
    ∃ s, callClassesLegal s = true ∧ gridLegal grid = true ∧ powerLegal power = true ∧ w = encodeLegal s grid power := by
  obtain ⟨s, hs, hg, hp, he⟩ | ⟨-, he⟩ | ⟨-, -, he⟩ | ⟨-, -, -, he⟩ := wsprEncode_cases lo hi grid power
  · rw [he] at h
    cases h
    exact ⟨s, classes_of_normalise hs, hg, hp, rfl⟩
  all_goals rw [he] at h; cases h

/-- PACK_N holds N whole (41_wspr_encoder.md R145). -/
theorem toNat_packN_encodeLegal {s : Str6} (hc : callClassesLegal s = true) (grid : Word) (power : Byte) :
    (encodeLegal s grid power).packN.toNat = packCall s :=
  Nat.mod_eq_of_lt (packCall_lt hc)

/-- PACK_GRID holds G whole (41_wspr_encoder.md R147). -/
theorem toNat_packGrid_encodeLegal (s : Str6) {grid : Word} (hg : gridLegal grid = true) (power : Byte) :
    (encodeLegal s grid power).packGrid.toNat = packGrid grid :=
  Nat.mod_eq_of_lt (packGrid_lt hg)

/-- PACK_M holds M whole (41_wspr_encoder.md R149). -/
theorem toNat_packM_encodeLegal (s : Str6) {grid : Word} (hg : gridLegal grid = true) {power : Byte}
    (hp : powerLegal power = true) : (encodeLegal s grid power).packM.toNat = packPower (packGrid grid) power :=
  Nat.mod_eq_of_lt (packPower_lt (packGrid_lt hg) hp)

/-- Settles O27: an encoded message's operands are legal, so each register holds its packed value whole, within that
value's range. -/
theorem packedFields : Obligations.PackedFields := by
  unfold Obligations.PackedFields
  intro lo hi grid power w hw v g
  obtain ⟨s, hc, hg, hp, rfl⟩ := wsprEncode_eq_ok hw
  rw [toNat_packN_encodeLegal hc, toNat_packGrid_encodeLegal s hg, toNat_packM_encodeLegal s hg hp]
  have hlo : (encodeLegal s grid power).normLo = word4 s.c0 s.c1 s.c2 s.c3 := rfl
  have hhi : (encodeLegal s grid power).normHi = half2 s.c4 s.c5 := rfl
  refine ⟨?_, packCall_le hc, packGrid_cast hg, packGrid_le hg, rfl, Nat.le_add_left _ _, packPower_le (packGrid_le hg) hp⟩
  rw [hlo, hhi, packCall_cast hc]
  simp only [v, lane_word4_0, lane_word4_1, lane_word4_2, lane_word4_3, lane_half2_0, lane_half2_1, callVal_cast]

end Sys2Proof.Machine
end

section
/-! The payload: P as a number, the buffer's bytes and the FEC's input bits (41_wspr_encoder.md R150 to R152), with the proof of
O28. -/

namespace Sys2Proof.Machine

/-- P as a number: the mask removes no bit of M, and N and M do not overlap (41_wspr_encoder.md R149, R150). -/
theorem toNat_payload {n m : Nat} (hn : n < 2 ^ 28) (hm : m < 2 ^ 22) :
    (payload n m).toNat = (n * 2 ^ 22 + m) * 2 ^ 6 := by
  have hmask : m &&& 0x3FFFFF = m := by
    rw [show 0x3FFFFF = 2 ^ 22 - 1 from rfl, Nat.and_two_pow_sub_one_eq_mod, Nat.mod_eq_of_lt hm]
  have hfields : n <<< 22 ||| m = n * 2 ^ 22 + m := by
    rw [← Nat.shiftLeft_add_eq_or_of_lt hm, Nat.shiftLeft_eq]
  rw [payload, hmask, hfields, Nat.shiftLeft_eq, BitVec.toNat_ofNat, Nat.mod_eq_of_lt (by omega)]

/-- Byte lane i of P as a quotient of P (41_wspr_encoder.md R151). -/
theorem lane_eq_ofNat (p : BitVec 56) (i : Nat) : lane p i = BitVec.ofNat 8 (p.toNat / 2 ^ (8 * i)) := by
  rw [← Nat.shiftRight_eq_div_pow]
  rfl

/-- Buffer byte b: lane 6 - b of P for the first seven, then zero (41_wspr_encoder.md R151). -/
theorem payloadBytes_getElem? (p : BitVec 56) {b : Nat} (hb : b < 11) :
    (payloadBytes p)[b]? = some (if b < 7 then lane p (6 - b) else 0#8) := by
  have hlen : ((List.range 7).map fun b => lane p (6 - b)).length = 7 := by simp
  by_cases h : b < 7
  · rw [payloadBytes, List.getElem?_append_left (by omega)]
    simp [h]
  · rw [payloadBytes, List.getElem?_append_right (by omega), hlen, List.getElem?_replicate_of_lt (by omega), if_neg h]

/-- Stream bit k of a buffer is bit 7 - k mod 8 of its byte k // 8 (41_wspr_encoder.md R152). -/
theorem flatMap_msbFirst_getElem? (buf : List Byte) (k : Nat) :
    (buf.flatMap msbFirst)[k]? = buf[k / 8]?.map (fun b => b.getLsbD (7 - k % 8)) := by
  induction buf generalizing k with
  | nil => simp
  | cons b bs ih =>
    have hlen : (msbFirst b).length = 8 := by simp [msbFirst]
    rw [List.flatMap_cons]
    by_cases hk : k < 8
    · rw [List.getElem?_append_left (by omega)]
      simp [msbFirst, hk, Nat.div_eq_of_lt hk, Nat.mod_eq_of_lt hk]
    · rw [List.getElem?_append_right (by omega), hlen, ih, show k / 8 = (k - 8) / 8 + 1 by omega,
        List.getElem?_cons_succ, show (k - 8) % 8 = k % 8 by omega]

/-- Input bit k is bit 55 - k of P, and 0 from the padding bytes on (41_wspr_encoder.md R152). -/
theorem inputBits_payloadBytes_getElem? (p : BitVec 56) {k : Nat} (hk : k < 81) :
    (inputBits (payloadBytes p))[k]? = some (decide (k < 56) && p.getLsbD (55 - k)) := by
  rw [inputBits, List.getElem?_take_of_lt hk, flatMap_msbFirst_getElem?, payloadBytes_getElem? p (by omega)]
  by_cases h : k < 56
  · have hbit : 8 * (6 - k / 8) + (7 - k % 8) = 55 - k := by omega
    simp [lane, h, show k / 8 < 7 by omega, hbit, show 7 - k % 8 < 8 by omega]
  · simp [h, show ¬ k / 8 < 7 by omega]

/-- Settles O28: input bit k is bit 55 - k of P, and P is the 50 payload bits above six zeros, so bits 50 to 55 are zero too. -/
theorem payloadBitStream : Obligations.PayloadBitStream := by
  unfold Obligations.PayloadBitStream
  intro n m hn hm
  refine ⟨toNat_payload hn hm, length_payloadBytes _, fun b hb => ?_, length_inputBits _, fun k hk => ?_⟩
  · rw [payloadBytes_getElem? _ hb, lane_eq_ofNat]
  · have hrange : k < 56 ∧ 6 ≤ 55 - k ↔ k < 50 := by omega
    rw [inputBits_payloadBytes_getElem? _ hk, ← BitVec.testBit_toNat, toNat_payload hn hm, Nat.testBit_mul_two_pow,
      show 55 - k - 6 = 49 - k by omega, ← Bool.and_assoc, ← Bool.decide_and, decide_eq_decide.mpr hrange]

end Sys2Proof.Machine
end

section
/-! Parity as a count of ones (41_wspr_encoder.md R154), with the proof of O29. -/

namespace Sys2Proof.Machine

/-- The XOR of the low n bits is 1 exactly when an odd number of them is 1 (41_wspr_encoder.md R154). -/
theorem xorBits_eq_countP (x : Word) (n : Nat) :
    xorBits x n = decide ((List.range n).countP (fun i => x.getLsbD i) % 2 = 1) := by
  induction n with
  | zero => rfl
  | succ n ih =>
    rw [xorBits, ih, List.range_succ, List.countP_append, List.countP_singleton]
    cases x.getLsbD n with
    | false => simp
    | true =>
      simp only [Bool.true_xor, ↓reduceIte, ← decide_not, decide_eq_decide]
      omega

/-- Settles O29, by induction on the number of low bits counted. -/
theorem parityCountsOnes : Obligations.ParityCountsOnes := by
  unfold Obligations.ParityCountsOnes
  exact fun x => xorBits_eq_countP x 32

end Sys2Proof.Machine
end

section
/-! What the U4B commands share: the character classes as ranges of codes, two characters as a number, the two ends of a command
and the frame of a success, for the proofs of O34, O36 and O37. -/

namespace Sys2Proof.Machine

/-! ### Character classes as ranges -/

/-- A digit's code (00_scope.md R11). -/
theorem isDigit_iff (b : Byte) : isDigit b = true ↔ 0x30 ≤ b.toNat ∧ b.toNat ≤ 0x39 := by
  simp only [isDigit, Bool.and_eq_true, decide_eq_true_eq]

/-- An uppercase letter's code (00_scope.md R11). -/
theorem isUpper_iff (b : Byte) : isUpper b = true ↔ 0x41 ≤ b.toNat ∧ b.toNat ≤ 0x5A := by
  simp only [isUpper, Bool.and_eq_true, decide_eq_true_eq]

/-- A subsquare letter's code (00_scope.md R11). -/
theorem isLowerAX_iff (b : Byte) : isLowerAX b = true ↔ 0x61 ≤ b.toNat ∧ b.toNat ≤ 0x78 := by
  simp only [isLowerAX, Bool.and_eq_true, decide_eq_true_eq]

/-- The first channel character is 'Q' or '0' (42_u4b_codec.md R191). -/
theorem channelLetter_iff (b : Byte) : channelLetter b = true ↔ b = chr 'Q' ∨ b = chr '0' := by
  simp only [channelLetter, Bool.or_eq_true, beq_iff_eq]

/-! ### Registers as numbers -/

/-- A 2-character register as a number: character 0 is its low byte (30_encoding.md R93). -/
theorem toNat_half2 (a b : Byte) : (half2 a b).toNat = a.toNat + 256 * b.toNat := by
  calc (half2 a b).toNat
      = b.toNat <<< 8 ||| a.toNat := BitVec.toNat_append b a
    _ = b.toNat <<< 8 + a.toNat := (Nat.shiftLeft_add_eq_or_of_lt a.isLt _).symm
    _ = a.toNat + 256 * b.toNat := by rw [Nat.shiftLeft_eq]; omega

/-- A 20-bit register holds a value below 2^20 whole (10_state.md R36). -/
theorem toNat_setWidth_ofNat_20 {t : Nat} (h : t < 2 ^ 20) : ((BitVec.ofNat 20 t).setWidth 32).toNat = t := by
  rw [BitVec.toNat_setWidth_of_le (by decide), BitVec.toNat_ofNat, Nat.mod_eq_of_lt h]

/-! ### The two ends of a command -/

/-- A command whose unit answers a result writes it and succeeds (60_exceptions.md R311). -/
theorem complete_map_of_ok {α : Type} {r : Except Err α} {a : α} (h : r = .ok a) (write : α → State) (s : State) :
    complete s (r.map write) = succeed (write a) := by
  rw [h]
  rfl

/-- A command whose unit answers an error raises it and writes no result (60_exceptions.md R312). -/
theorem complete_map_of_error {α : Type} {r : Except Err α} {e : Err} (h : r = .error e) (write : α → State) (s : State) :
    complete s (r.map write) = raiseError e s := by
  rw [h]
  rfl

/-- A success that writes codec registers keeps the frame of a command with the registers written as destinations. -/
theorem commandFrame_succeed_setCodec {dests : List Reg} {s : State} {x : CodecRegs}
    (h : readsSameBut dests s (s.setCodec x)) : CommandFrame dests s (succeed (s.setCodec x)) := by
  have hcomplete : CommandFrame dests s (complete s (.ok (s.setCodec x))) ∧ _ := complete_frame fun t ht => by
    obtain rfl := Except.ok.inj ht
    exact ⟨commandFrame_setCodec h, rfl⟩
  exact hcomplete.1

end Sys2Proof.Machine
end

section
/-! U4B_ENC_CALL: its checks as ranges, the pseudo-callsign's characters as numbers, and its four ends (42_u4b_codec.md R190 to
R197), with the proof of O34. -/

namespace Sys2Proof.Machine

/-! ### The checks -/

/-- The channel check on the characters of CHAN (42_u4b_codec.md R191). -/
theorem channelLegal_iff (ch : BitVec 16) :
    channelLegal ch = true ↔
      (lane ch 0 = chr 'Q' ∨ lane ch 0 = chr '0') ∧ 0x30 ≤ (lane ch 1).toNat ∧ (lane ch 1).toNat ≤ 0x39 := by
  rw [channelLegal, Bool.and_eq_true, channelLetter_iff, isDigit_iff]

/-- The subsquare check on the characters of SUBSQ (42_u4b_codec.md R192). -/
theorem subsqLegal_iff (sq : BitVec 16) :
    subsqLegal sq = true ↔
      0x61 ≤ (lane sq 0).toNat ∧ (lane sq 0).toNat ≤ 0x78 ∧ 0x61 ≤ (lane sq 1).toNat ∧ (lane sq 1).toNat ≤ 0x78 := by
  rw [subsqLegal, Bool.and_eq_true, isLowerAX_iff, isLowerAX_iff, and_assoc]

/-- The altitude check is R193's two bounds. -/
theorem altitudeLegal_iff (alt : Int) : altitudeLegal alt = true ↔ 0 ≤ alt ∧ alt ≤ 21359 := by
  simp only [altitudeLegal, Bool.and_eq_true, decide_eq_true_eq]

section
variable {ch sq : BitVec 16} {alt : Word}

/-- Legal operands encode (42_u4b_codec.md R190). -/
theorem encCall_of_legal (hc : channelLegal ch = true) (hs : subsqLegal sq = true) (ha : altitudeLegal alt.toInt = true) :
    encCall ch sq alt = .ok ⟨pseudoCall ch (callInt sq alt.toInt), callInt sq alt.toInt⟩ := by
  simp [encCall, hc, hs, ha]

/-- The channel is checked first (60_exceptions.md R313). -/
theorem encCall_of_illegalChannel (hc : ¬ channelLegal ch = true) : encCall ch sq alt = .error .invalidChannel := by
  simp [encCall, hc]

/-- The subsquare is checked second (60_exceptions.md R313). -/
theorem encCall_of_illegalSubsq (hc : channelLegal ch = true) (hs : ¬ subsqLegal sq = true) :
    encCall ch sq alt = .error .invalidGrid := by
  simp [encCall, hc, hs]

/-- The altitude is checked last (60_exceptions.md R313). -/
theorem encCall_of_illegalAltitude (hc : channelLegal ch = true) (hs : subsqLegal sq = true)
    (ha : ¬ altitudeLegal alt.toInt = true) : encCall ch sq alt = .error .altitudeOutOfRange := by
  simp [encCall, hc, hs, ha]

end

/-! ### The characters of a pseudo-callsign -/

/-- telem_int from the characters' codes (42_u4b_codec.md R194). -/
theorem callInt_eq (sq : BitVec 16) (alt : Int) :
    callInt sq alt = (((lane sq 0).toNat - 0x61) * 24 + ((lane sq 1).toNat - 0x61)) * 1068 + alt.toNat / 20 := by
  have hdiv : (alt / 20).toNat = alt.toNat / 20 := by omega
  rw [callInt, hdiv]
  rfl

/-- The code of a base-36 character (42_u4b_codec.md R196). -/
theorem toNat_chr36 {v : Nat} (h : v < 36) : (chr36 v).toNat = if v < 10 then 0x30 + v else 0x41 + (v - 10) := by
  unfold chr36
  split
  · exact toNat_chrPlus (c := '0') (by simp; omega)
  · exact toNat_chrPlus (c := 'A') (by simp; omega)

/-- The code of the base-36 character, whose value is below 36 (42_u4b_codec.md R195, R196). -/
theorem toNat_pseudoCall_c1 (ch : BitVec 16) {t : Nat} (h : t ≤ 615167) :
    (pseudoCall ch t).c1.toNat = if t / 17576 < 10 then 0x30 + t / 17576 else 0x41 + (t / 17576 - 10) :=
  toNat_chr36 (by omega)

/-- The codes of the three letters, whose values are below 26 (42_u4b_codec.md R195, R196). -/
theorem toNat_pseudoCall_letters (ch : BitVec 16) (t : Nat) :
    (pseudoCall ch t).c3.toNat = 0x41 + t % 17576 / 676 ∧ (pseudoCall ch t).c4.toNat = 0x41 + t % 17576 % 676 / 26 ∧
      (pseudoCall ch t).c5.toNat = 0x41 + t % 17576 % 26 :=
  ⟨toNat_chrPlus (c := 'A') (by simp; omega), toNat_chrPlus (c := 'A') (by simp; omega),
    toNat_chrPlus (c := 'A') (by simp; omega)⟩

/-! ### Running the command -/

/-- U4B_ENC_CALL ends as the call encoder answers (42_u4b_codec.md R190). -/
theorem exec_u4bEncCall (s : State) :
    exec .u4bEncCall s =
      .next (complete s ((encCall s.codec.chan s.codec.subsq s.codec.alt).map fun f => writeCallFrame f s)) := rfl

/-- Writing a call frame changes UCALL_LO, UCALL_HI and UCALL_INT alone (42_u4b_codec.md R197). -/
theorem readsSameBut_writeCallFrame (f : CallFrame) (s : State) :
    readsSameBut [.ucallLo, .ucallHi, .ucallInt] s (writeCallFrame f s) := by
  intro r hr _
  cases r
  case ucallLo | ucallHi | ucallInt => simp at hr
  all_goals rfl

/-- The three result registers after a success (42_u4b_codec.md R197). -/
theorem readReg_succeed_writeCallFrame (f : CallFrame) (s : State) :
    readReg .ucallLo (succeed (writeCallFrame f s)) = word4 f.call.c0 f.call.c1 f.call.c2 f.call.c3 ∧
      readReg .ucallHi (succeed (writeCallFrame f s)) = (half2 f.call.c4 f.call.c5).setWidth 32 ∧
      readReg .ucallInt (succeed (writeCallFrame f s)) = (BitVec.ofNat 20 f.t).setWidth 32 :=
  ⟨rfl, rfl, rfl⟩

/-- Settles O34: the three checks, in order, decide between the four ends of U4B_ENC_CALL. Past them telem_int is at most 615167, so
UCALL_INT holds it whole and each character's code is its formula without wrapping. -/
theorem u4bEncodeCall : Obligations.U4bEncodeCall := by
  unfold Obligations.U4bEncodeCall
  intro s h0 h1 q0 q1 alt channelOk subsqOk altOk tele
  have hh0 : h0 = lane s.codec.chan 0 := lane_setWidth _ Nat.zero_lt_two
  have hh1 : h1 = lane s.codec.chan 1 := lane_setWidth _ Nat.one_lt_two
  have hq0 : q0 = (lane s.codec.subsq 0).toNat := congrArg BitVec.toNat (lane_setWidth _ Nat.zero_lt_two)
  have hq1 : q1 = (lane s.codec.subsq 1).toNat := congrArg BitVec.toNat (lane_setWidth _ Nat.one_lt_two)
  have hchannel : channelOk ↔ channelLegal s.codec.chan = true := by
    rw [channelLegal_iff, ← hh0, ← hh1]
  have hsubsq : subsqOk ↔ subsqLegal s.codec.subsq = true := by
    rw [subsqLegal_iff, ← hq0, ← hq1]
  have halt : altOk ↔ altitudeLegal s.codec.alt.toInt = true := (altitudeLegal_iff _).symm
  have htele : callInt s.codec.subsq s.codec.alt.toInt = tele := by
    rw [callInt_eq, ← hq0, ← hq1]
    rfl
  rw [hchannel, hsubsq, halt, exec_u4bEncCall, hh0, hh1]
  refine ⟨fun hc hs ha => ?_, fun hc => ?_, fun hc hs => ?_, fun hc hs ha => ?_⟩
  · have hle : tele ≤ 615167 := htele ▸ callInt_le hs ha
    have hok := encCall_of_legal hc hs ha
    rw [htele] at hok
    obtain ⟨hlo, hhi, hint⟩ := readReg_succeed_writeCallFrame ⟨pseudoCall s.codec.chan tele, tele⟩ s
    obtain ⟨h3, h4, h5⟩ := toNat_pseudoCall_letters s.codec.chan tele
    rw [complete_map_of_ok hok]
    refine ⟨_, rfl, rfl, rfl, commandFrame_succeed_setCodec (readsSameBut_writeCallFrame _ s), ?_⟩
    rw [hlo, hhi, hint, lane_setWidth _ Nat.zero_lt_two, lane_setWidth _ Nat.one_lt_two, lane_word4_0, lane_word4_1,
      lane_word4_2, lane_word4_3, lane_half2_0, lane_half2_1]
    exact ⟨toNat_setWidth_ofNat_20 (hle.trans_lt (by decide)), hle, rfl, rfl, toNat_pseudoCall_c1 _ hle, h3, h4, h5,
      toNat_setWidth_lt _⟩
  · rw [complete_map_of_error (encCall_of_illegalChannel hc)]
    rfl
  · rw [complete_map_of_error (encCall_of_illegalSubsq hc hs)]
    rfl
  · rw [complete_map_of_error (encCall_of_illegalAltitude hc hs ha)]
    rfl

end Sys2Proof.Machine
end

section
/-! U4B_DEC_CALL: its checks as ranges, telem_int from the characters' codes, and its four ends (42_u4b_codec.md R216 to R221), with
the proof of O36. -/

namespace Sys2Proof.Machine

/-! ### The checks -/

/-- The channel check on a pseudo-callsign's characters (42_u4b_codec.md R217). -/
theorem callChannelLegal_iff (cs : Str6) :
    callChannelLegal cs = true ↔ (cs.c0 = chr 'Q' ∨ cs.c0 = chr '0') ∧ 0x30 ≤ cs.c2.toNat ∧ cs.c2.toNat ≤ 0x39 := by
  rw [callChannelLegal, Bool.and_eq_true, channelLetter_iff, isDigit_iff]

/-- The value check on a pseudo-callsign's characters (42_u4b_codec.md R218). -/
theorem callValuesLegal_iff (cs : Str6) :
    callValuesLegal cs = true ↔
      ((0x30 ≤ cs.c1.toNat ∧ cs.c1.toNat ≤ 0x39) ∨ (0x41 ≤ cs.c1.toNat ∧ cs.c1.toNat ≤ 0x5A)) ∧
      (0x41 ≤ cs.c3.toNat ∧ cs.c3.toNat ≤ 0x5A) ∧ (0x41 ≤ cs.c4.toNat ∧ cs.c4.toNat ≤ 0x5A) ∧
      (0x41 ≤ cs.c5.toNat ∧ cs.c5.toNat ≤ 0x5A) := by
  simp only [callValuesLegal, Bool.and_eq_true, Bool.or_eq_true, isDigit_iff, isUpper_iff, and_assoc]

/-- The decoded values of a telem_int (42_u4b_codec.md R220, R221). -/
def callValuesOf (cs : Str6) (t : Nat) : CallValues :=
  ⟨half2 cs.c0 cs.c2, half2 (chrPlus 'a' (t / 1068 / 24)) (chrPlus 'a' (t / 1068 % 24)), t % 1068 * 20, t⟩

section
variable {cs : Str6}

/-- A legal pseudo-callsign whose subsquare index is in range decodes (42_u4b_codec.md R216). -/
theorem decCall_of_legal (hc : callChannelLegal cs = true) (hv : callValuesLegal cs = true)
    (hs : decodedCallInt cs / 1068 / 24 ≤ 23) : decCall cs = .ok (callValuesOf cs (decodedCallInt cs)) := by
  simp [decCall, callValuesOf, hc, hv, Nat.not_lt.mpr hs]

/-- The channel characters are checked first (60_exceptions.md R313). -/
theorem decCall_of_illegalChannel (hc : ¬ callChannelLegal cs = true) : decCall cs = .error .invalidChannel := by
  simp [decCall, hc]

/-- The value characters are checked second (60_exceptions.md R313). -/
theorem decCall_of_illegalValues (hc : callChannelLegal cs = true) (hv : ¬ callValuesLegal cs = true) :
    decCall cs = .error .invalidCallsign := by
  simp [decCall, hc, hv]

/-- The subsquare index is checked last (42_u4b_codec.md R220, 60_exceptions.md R313). -/
theorem decCall_of_illegalSubsq (hc : callChannelLegal cs = true) (hv : callValuesLegal cs = true)
    (hs : 23 < decodedCallInt cs / 1068 / 24) : decCall cs = .error .invalidGrid := by
  simp [decCall, hc, hv, hs]

/-! ### The decoded values as numbers -/

/-- The value of a base-36 character from its code (42_u4b_codec.md R218). -/
theorem val36_eq {b : Byte} (h : (isDigit b || isUpper b) = true) :
    val36 b = if b.toNat ≤ 0x39 then b.toNat - 0x30 else b.toNat - 0x41 + 10 := by
  rw [Bool.or_eq_true, isDigit_iff, isUpper_iff] at h
  have hdigit : isDigit b = true ↔ b.toNat ≤ 0x39 := by
    rw [isDigit_iff]
    omega
  simp only [val36, hdigit, digitVal, upperVal]

/-- telem_int from the characters' codes (42_u4b_codec.md R219). -/
theorem decodedCallInt_eq (hv : callValuesLegal cs = true) :
    decodedCallInt cs =
      (if cs.c1.toNat ≤ 0x39 then cs.c1.toNat - 0x30 else cs.c1.toNat - 0x41 + 10) * 17576 + (cs.c3.toNat - 0x41) * 676 +
        (cs.c4.toNat - 0x41) * 26 + (cs.c5.toNat - 0x41) := by
  simp only [callValuesLegal, Bool.and_eq_true] at hv
  obtain ⟨⟨⟨h1, -⟩, -⟩, -⟩ := hv
  rw [decodedCallInt, val36_eq h1]
  rfl

end

/-- The decoded subsquare as a number: both letters' indices are below 24 (42_u4b_codec.md R220, R221). -/
theorem toNat_callValuesOf_subsq (cs : Str6) {t : Nat} (h : t / 1068 / 24 ≤ 23) :
    (callValuesOf cs t).subsq.toNat = 0x61 + t / 1068 / 24 + 256 * (0x61 + t / 1068 % 24) := by
  rw [callValuesOf, toNat_half2, toNat_chrPlus (by simp; omega), toNat_chrPlus (by simp; omega)]
  rfl

/-! ### Running the command -/

/-- U4B_DEC_CALL ends as the call decoder answers (42_u4b_codec.md R216). -/
theorem exec_u4bDecCall (s : State) :
    exec .u4bDecCall s =
      .next (complete s ((decCall (str6Of s.codec.ucallLo s.codec.ucallHi)).map fun v => writeCallValues v s)) := rfl

/-- Writing decoded values changes DCHAN, DSUBSQ, DALT and UCALL_INT alone (42_u4b_codec.md R221). -/
theorem readsSameBut_writeCallValues (v : CallValues) (s : State) :
    readsSameBut [.dchan, .dsubsq, .dalt, .ucallInt] s (writeCallValues v s) := by
  intro r hr _
  cases r
  case dchan | dsubsq | dalt | ucallInt => simp at hr
  all_goals rfl

/-- The four result registers after a success (42_u4b_codec.md R221). -/
theorem readReg_succeed_writeCallValues (v : CallValues) (s : State) :
    readReg .ucallInt (succeed (writeCallValues v s)) = (BitVec.ofNat 20 v.t).setWidth 32 ∧
      readReg .dalt (succeed (writeCallValues v s)) = BitVec.ofNat 32 v.alt ∧
      readReg .dchan (succeed (writeCallValues v s)) = v.chan.setWidth 32 ∧
      readReg .dsubsq (succeed (writeCallValues v s)) = v.subsq.setWidth 32 :=
  ⟨rfl, rfl, rfl, rfl⟩

/-- Settles O36: the three checks, in order, decide between the four ends of U4B_DEC_CALL. Past the last one telem_int is below
24 * 24 * 1068, so no result register truncates its value. -/
theorem u4bDecodeCall : Obligations.U4bDecodeCall := by
  unfold Obligations.U4bDecodeCall
  intro s c0 c1 c2 c3 c4 c5 channelOk valuesOk tele
  let cs := str6Of s.codec.ucallLo s.codec.ucallHi
  have hc4 : c4 = cs.c4.toNat := congrArg BitVec.toNat (lane_setWidth _ Nat.zero_lt_two)
  have hc5 : c5 = cs.c5.toNat := congrArg BitVec.toNat (lane_setWidth _ Nat.one_lt_two)
  have hchannel : channelOk ↔ callChannelLegal cs = true := (callChannelLegal_iff cs).symm
  have hvalues : valuesOk ↔ callValuesLegal cs = true := by
    rw [callValuesLegal_iff, ← hc4, ← hc5]
    rfl
  have htele (hv : callValuesLegal cs = true) : decodedCallInt cs = tele := by
    rw [decodedCallInt_eq hv, ← hc4, ← hc5]
    rfl
  rw [hchannel, hvalues, exec_u4bDecCall]
  refine ⟨fun hc hv hs => ?_, fun hc => ?_, fun hc hv => ?_, fun hc hv hs => ?_⟩
  · have hok := decCall_of_legal hc hv (htele hv ▸ hs)
    rw [htele hv] at hok
    obtain ⟨hint, halt, hchan, hsubsq⟩ := readReg_succeed_writeCallValues (callValuesOf cs tele) s
    rw [complete_map_of_ok hok]
    refine ⟨_, rfl, rfl, rfl, commandFrame_succeed_setCodec (readsSameBut_writeCallValues _ s), ?_⟩
    rw [hint, halt, hchan, hsubsq, BitVec.toNat_setWidth_of_le (by decide), BitVec.toNat_setWidth_of_le (by decide)]
    refine ⟨toNat_setWidth_ofNat_20 ?_, Nat.mod_eq_of_lt ?_, toNat_half2 _ _, toNat_callValuesOf_subsq cs hs⟩
    · show tele < 2 ^ 20
      omega
    · show tele % 1068 * 20 < 2 ^ 32
      omega
  · rw [complete_map_of_error (decCall_of_illegalChannel hc)]
    rfl
  · rw [complete_map_of_error (decCall_of_illegalValues hc hv)]
    rfl
  · rw [complete_map_of_error (decCall_of_illegalSubsq hc hv (htele hv ▸ hs))]
    rfl

end Sys2Proof.Machine
end

section
/-! U4B_DEC_ENG: the first index of a power in POWER_LUT, the demultiplexed values in their registers, and its three ends
(42_u4b_codec.md R210 to R215), with the proof of O37. -/

namespace Sys2Proof.Machine

/-! ### The reverse lookup -/

/-- POWER_LUT as numbers holds a power's number where POWER_LUT holds the power. -/
theorem map_toNat_powerLut_getElem? (i : Nat) (p : Byte) :
    (powerLut.map BitVec.toNat)[i]? = some p.toNat ↔ powerLut[i]? = some p := by
  simp [BitVec.toNat_inj]

/-- The lookup answers the first index of the power (42_u4b_codec.md R212). -/
theorem findIdx_powerLut_of_first {p : Byte} {idx : Nat} (h : powerLut[idx]? = some p)
    (hfirst : ∀ j, j < idx → powerLut[j]? ≠ some p) : powerLut.findIdx? (fun q => q == p) = some idx := by
  obtain ⟨hlt, hp⟩ := List.getElem?_eq_some_iff.mp h
  rw [List.findIdx?_eq_some_iff_getElem]
  refine ⟨hlt, beq_iff_eq.mpr hp, fun j hj hq => hfirst j hj ?_⟩
  rw [List.getElem?_eq_getElem (hj.trans hlt), beq_iff_eq.mp hq]

/-- The lookup has no answer on a power outside POWER_LUT (42_u4b_codec.md R212). -/
theorem findIdx_powerLut_of_not_mem {p : Byte} (h : p ∉ powerLut) : powerLut.findIdx? (fun q => q == p) = none := by
  rw [List.findIdx?_eq_none_iff]
  intro q hq
  rw [beq_eq_false_iff_ne]
  rintro rfl
  exact h hq

section
variable {grid : Word} {power : Byte}

/-- A legal grid and a power found in POWER_LUT decode (42_u4b_codec.md R210, R213). -/
theorem decEng_of_legal (hg : gridLegal grid = true) {idx : Nat} (hp : powerLut.findIdx? (fun q => q == power) = some idx) :
    decEng grid power = .ok (demux (gridInt grid * 19 + idx)) := by
  simp [decEng, hg, hp]

/-- The grid is checked first (60_exceptions.md R313). -/
theorem decEng_of_illegalGrid (hg : ¬ gridLegal grid = true) : decEng grid power = .error .invalidGrid := by
  simp [decEng, hg]

/-- The power is looked up second (60_exceptions.md R313). -/
theorem decEng_of_illegalPower (hg : gridLegal grid = true) (hp : powerLut.findIdx? (fun q => q == power) = none) :
    decEng grid power = .error .invalidPower := by
  simp [decEng, hg, hp]

/-- The range of g on a legal grid: up to RR99 (42_u4b_codec.md R213). -/
theorem gridInt_le (hg : gridLegal grid = true) : gridInt grid ≤ 32399 := by
  have := (gridLegal_iff grid).mp hg
  simp only [gridInt, upperVal, digitVal]
  omega

end

/-! ### The demultiplexed values in their registers -/

/-- DTEMP holds the temperature of a telem_int below 2^20 (42_u4b_codec.md R214). -/
theorem toInt_ofInt_demux_temp {t : Nat} (h : t < 2 ^ 20) :
    (BitVec.ofInt 32 (demux t).temp).toInt = (t / 6720 : Nat) - 50 := by
  have htemp : (demux t).temp = (t / 6720 : Nat) - 50 := rfl
  rw [htemp]
  apply BitVec.toInt_ofInt_eq_self (by decide) <;> omega

/-- DVOLT and DSPEED hold the voltage and the speed of any telem_int (42_u4b_codec.md R214). -/
theorem toNat_ofNat_demux (t : Nat) :
    (BitVec.ofNat 32 (demux t).volt).toNat = 3000 + 50 * (t / 168 % 40) ∧
      (BitVec.ofNat 32 (demux t).speed).toNat = 2 * (t / 4 % 42) := by
  simp only [demux, BitVec.toNat_ofNat]
  omega

/-- Two flags as a number, the second one in bit 0 (10_state.md R33). -/
theorem toNat_flags (orient health : Bool) :
    ((BitVec.ofBool orient ++ BitVec.ofBool health).setWidth 32).toNat = orient.toNat * 2 + health.toNat := by
  cases orient <;> cases health <;> rfl

/-- A bit as a number. -/
theorem toNat_mod_two_beq (n : Nat) : (n % 2 == 1).toNat = n % 2 := by
  obtain h | h := Nat.mod_two_eq_zero_or_one n <;> simp [h]

/-! ### Running the command -/

/-- U4B_DEC_ENG ends as the engineering decoder answers (42_u4b_codec.md R210). -/
theorem exec_u4bDecEng (s : State) :
    exec .u4bDecEng s = .next (complete s ((decEng s.codec.ugrid s.codec.upower).map fun v => writeEngValues v s)) := rfl

/-- Writing engineering values changes DTEMP, DVOLT, DSPEED, DFLAGS and UENG_INT alone (42_u4b_codec.md R215). -/
theorem readsSameBut_writeEngValues (v : EngValues) (s : State) :
    readsSameBut [.dtemp, .dvolt, .dspeed, .dflags, .uengInt] s (writeEngValues v s) := by
  intro r hr _
  cases r
  case dtemp | dvolt | dspeed | dflags | uengInt => simp at hr
  all_goals rfl

/-- The five result registers after a success (42_u4b_codec.md R215). -/
theorem readReg_succeed_writeEngValues (v : EngValues) (s : State) :
    readReg .uengInt (succeed (writeEngValues v s)) = (BitVec.ofNat 20 v.t).setWidth 32 ∧
      readReg .dtemp (succeed (writeEngValues v s)) = BitVec.ofInt 32 v.temp ∧
      readReg .dvolt (succeed (writeEngValues v s)) = BitVec.ofNat 32 v.volt ∧
      readReg .dspeed (succeed (writeEngValues v s)) = BitVec.ofNat 32 v.speed ∧
      readReg .dflags (succeed (writeEngValues v s)) = (BitVec.ofBool v.orient ++ BitVec.ofBool v.health).setWidth 32 :=
  ⟨rfl, rfl, rfl, rfl, rfl⟩

/-- Settles O37: the grid check and the lookup, in order, decide between the three ends of U4B_DEC_ENG. Past them telem_int is at
most 32399 * 19 + 18, so no result register truncates its value. -/
theorem u4bDecodeEngineering : Obligations.U4bDecodeEngineering := by
  unfold Obligations.U4bDecodeEngineering
  intro s g power lut gridOk gi
  have hgrid : gridOk ↔ gridLegal s.codec.ugrid = true := (gridLegal_iff _).symm
  have hgi : gi = gridInt s.codec.ugrid := rfl
  have hlut : lut = powerLut.map BitVec.toNat := rfl
  have hpower : power = s.codec.upower.toNat := BitVec.toNat_setWidth_of_le (by decide)
  rw [hgrid, hgi, hlut, hpower, exec_u4bDecEng]
  refine ⟨fun idx hg hlookup hfirst => ?_, fun hg => ?_, fun hg hp => ?_⟩
  · set tele := gridInt s.codec.ugrid * 19 + idx
    have hfound := (map_toNat_powerLut_getElem? _ _).mp hlookup
    have hfind := findIdx_powerLut_of_first hfound fun j hj =>
      mt (map_toNat_powerLut_getElem? _ _).mpr (hfirst j hj)
    have hlt : tele < 2 ^ 20 := by
      have hle := gridInt_le hg
      obtain ⟨hidx, -⟩ := List.getElem?_eq_some_iff.mp hfound
      have hlength : powerLut.length = 19 := rfl
      omega
    obtain ⟨hint, htemp, hvolt, hspeed, hflags⟩ := readReg_succeed_writeEngValues (demux tele) s
    obtain ⟨hv, hsp⟩ := toNat_ofNat_demux tele
    rw [complete_map_of_ok (decEng_of_legal hg hfind)]
    refine ⟨_, rfl, rfl, rfl, commandFrame_succeed_setCodec (readsSameBut_writeEngValues _ s), ?_⟩
    rw [hint, htemp, hvolt, hspeed, hflags, toNat_flags]
    refine ⟨toNat_setWidth_ofNat_20 hlt, toInt_ofInt_demux_temp hlt, hv, hsp, ?_⟩
    exact congrArg₂ (· * 2 + ·) (toNat_mod_two_beq _) (toNat_mod_two_beq _)
  · rw [complete_map_of_error (decEng_of_illegalGrid hg)]
    rfl
  · have hmem : s.codec.upower ∉ powerLut := fun h => hp (List.mem_map_of_mem h)
    rw [complete_map_of_error (decEng_of_illegalPower hg (findIdx_powerLut_of_not_mem hmem))]
    rfl

end Sys2Proof.Machine
end

section
/-! What no command touches, what a store leaves a register reading, and the lock of the configuration (43_scheduler.md R246), with
the proof of O13. -/

namespace Sys2Proof.Machine

/-! ### What a command leaves alone -/

/-- A unit whose results differ from the old state in codec and WENC registers alone ends in a state that differs in those and in
LAST_ERR alone (60_exceptions.md R311, R312). -/
theorem complete_map_codec {α : Type} {s : State} {f : α → State} (hf : ∀ a, f a = (s.setCodec (f a).codec).setWenc (f a).wenc)
    (r : Except Err α) :
    let t := complete s (r.map f)
    t = ((s.setCodec t.codec).setWenc t.wenc).setLastErr t.lastErr := by
  cases r with
  | ok a => exact congrArg succeed (hf a)
  | error e => rfl

/-- Outside the SCHED unit a command changes codec registers, WENC registers and LAST_ERR alone (30_encoding.md R100). -/
theorem exec_codecUnit {i : Instr} {s t : State} (hi : i ∉ [Instr.schedTick, .toneTick, .ppsEdge, .schedReset])
    (h : exec i s = .next t) : t = ((s.setCodec t.codec).setWenc t.wenc).setLastErr t.lastErr := by
  cases i with
  | nop | u4bEncEng => cases h; rfl
  | locate | wsprEncode | u4bEncCall | u4bDecCall | u4bDecEng => cases h; exact complete_map_codec (fun _ => rfl) _
  | schedTick | toneTick | ppsEdge | schedReset => simp at hi

/-- A SCHED_TICK does one of the listed effects (43_scheduler.md R241, R244). -/
theorem tickEffect_of_exec {s t : State} (h : exec .schedTick s = .next t) : TickEffect s t := by
  obtain ⟨u, hu, he⟩ := execSchedTick_effect s
  cases hu.symm.trans h
  exact he

/-- An active TONE_TICK writes the SCHED registers, the trace and LAST_ERR alone (43_scheduler.md R270). -/
theorem exec_toneTick_of_active {s : State} (h : toneActive s.sched = true) :
    exec .toneTick s = .next (((succeed s).setSched (keyedRegs s.sched (toneOffset s.sched.txBase (currentSymbol s)))).setTrace
      (s.trace ++ keyedEvents s.sched (toneOffset s.sched.txBase (currentSymbol s)))) := by
  have hkey : exec .toneTick s = .next (keySymbol (succeed s)) := (execToneTick_eq s).trans (by rw [if_pos h])
  rw [hkey, keySymbol_eq]
  rfl

/-- Any other TONE_TICK writes LAST_ERR alone (43_scheduler.md R271). -/
theorem exec_toneTick_of_inactive {s : State} (h : ¬ toneActive s.sched = true) : exec .toneTick s = .next (succeed s) :=
  (execToneTick_eq s).trans (by rw [if_neg h])

/-- A TONE_TICK leaves the configuration and RADIO_CFGD as they were (43_scheduler.md R270, R271). -/
theorem toneTick_frame {s t : State} (h : exec .toneTick s = .next t) :
    t.scfg = s.scfg ∧ t.sched.radioCfgd = s.sched.radioCfgd := by
  by_cases hactive : toneActive s.sched = true
  · cases (exec_toneTick_of_active hactive).symm.trans h
    exact ⟨rfl, rfl⟩
  · cases (exec_toneTick_of_inactive hactive).symm.trans h
    exact ⟨rfl, rfl⟩

/-- SCHED_RESET clears the scheduler status, the snapshot, TXBUF and LAST_ERR, emits both levels' events, and changes nothing else
(43_scheduler.md R287). -/
theorem exec_schedReset (s : State) : exec .schedReset s = .next
    (((((s.setSched .reset).setSnap .reset).setTxbuf 0).setTrace (s.trace ++ [.rfEnable false, .toneClock false])).setLastErr
      none) := by
  have hrun : exec .schedReset s =
    .next (succeed (driveToneClock false (driveRf false (((s.setSched .reset).setSnap .reset).setTxbuf 0)))) := rfl
  rw [hrun, Host.Outcome.next.injEq]
  apply State.eq_of_fields <;> simp [succeed, driveRf, driveToneClock, SchedRegs.reset]

/-- The radio is configured at most once: RADIO_CFGD is then 1, with an event if it was 0 (43_scheduler.md R251). -/
theorem configureRadioOnce_eq (s : State) :
    configureRadioOnce s = (s.setSched { s.sched with radioCfgd := true }).setTrace
      (s.trace ++ if s.sched.radioCfgd then [] else [.radioConfigure]) := by
  unfold configureRadioOnce
  split
  next h =>
    have hsched : { s.sched with radioCfgd := true } = s.sched := by rw [← h]
    rw [hsched]
    simp [State.setSched, State.setTrace]
  next => rfl

/-- The commit of a message leaves the configuration and RADIO_CFGD as they were (43_scheduler.md R258). -/
theorem commitMessage_frame (m : Message) (s : State) :
    (commitMessage m s).scfg = s.scfg ∧ (commitMessage m s).sched.radioCfgd = s.sched.radioCfgd := by
  unfold commitMessage
  dsimp only
  split <;> exact ⟨rfl, rfl⟩

/-- A tick changes no configuration register (43_scheduler.md R246). -/
theorem TickEffect.scfg {s t : State} (h : TickEffect s t) : t.scfg = s.scfg := by
  cases h with
  | t3 => rw [configureRadioOnce_eq]; rfl
  | t4 m =>
    obtain ⟨hscfg, -⟩ := commitMessage_frame m (succeed s)
    exact hscfg
  | _ => rfl

/-- No command changes the configuration (43_scheduler.md R246). -/
theorem exec_scfg {i : Instr} {s t : State} (h : exec i s = .next t) : t.scfg = s.scfg := by
  cases i with
  | schedTick => exact (tickEffect_of_exec h).scfg
  | toneTick =>
    obtain ⟨hscfg, -⟩ := toneTick_frame h
    exact hscfg
  | ppsEdge => cases h; rfl
  | schedReset =>
    cases (exec_schedReset s).symm.trans h
    simp
  | _ =>
    rw [exec_codecUnit (by decide) h]
    rfl

/-! ### What an input leaves of the configuration -/

/-- A read changes no configuration register (20_memory.md R79). -/
theorem memRead_scfg (off : Offset) (width : Nat) (s : State) : (memRead off width s).scfg = s.scfg := by
  unfold memRead
  split
  · split <;> rfl
  · rfl

/-- A word written to CMD changes no configuration register (43_scheduler.md R246). -/
theorem runCommandWord_scfg {w : Word} {s t : State} (h : runCommandWord w s = .next t) : t.scfg = s.scfg := by
  unfold runCommandWord at h
  split at h
  · exact exec_scfg h
  · cases h; rfl

section
variable {s t : State} (hs : s.sched.state ≠ .init)
include hs

/-- Outside Init no write to a register changes the configuration (43_scheduler.md R246). -/
theorem writeRegister_scfg {r : Reg} {v : Word} (h : writeRegister r v s = .next t) : t.scfg = s.scfg := by
  cases ha : regAccess r with
  | locked => rw [writeRegister_locked_of_ne_init ha hs] at h; cases h; rfl
  | ro => rw [writeRegister_ro ha] at h; cases h; rfl
  | wo => simp only [writeRegister, ha] at h; exact runCommandWord_scfg h
  | rw | w1c => simp only [writeRegister, ha] at h; cases h; exact storeReg_scfg (by simp [ha]) v s

/-- Outside Init no host write changes the configuration (43_scheduler.md R246). -/
theorem memWrite_scfg {off : Offset} {width : Nat} {v : Word} (h : memWrite off width v s = .next t) : t.scfg = s.scfg := by
  unfold memWrite at h
  split at h
  · split at h
    · exact writeRegister_scfg hs h
    · cases h; rfl
  · cases h; rfl

/-- Outside Init only the reset pin changes the configuration (43_scheduler.md R246). -/
theorem acceptInput_scfg {i : Input} (hi : ∀ b, i ≠ .rst b) (h : acceptInput i s = .next t) : t.scfg = s.scfg := by
  cases i with
  | read off width => cases h; exact memRead_scfg off width s
  | write => exact memWrite_scfg hs h
  | ppsIn => exact exec_scfg (i := .ppsEdge) h
  | toneTickIn => exact exec_scfg (i := .toneTick) h
  | rst b => exact absurd rfl (hi b)

/-- Outside Init no step but one on the reset pin changes the configuration (43_scheduler.md R246). -/
theorem step_scfg (hpending : ∀ b rest, s.pending ≠ .rst b :: rest) (h : step s = .next t) : t.scfg = s.scfg := by
  obtain ⟨u, hu, he⟩ := step_effect s
  cases hu.symm.trans h
  cases he with
  | idle | held => rfl
  | release rest hp => exact absurd hp (hpending _ _)
  | input i rest hp _ ha =>
    have hi : ∀ b, i ≠ .rst b := by rintro b rfl; exact hpending b rest hp
    exact acceptInput_scfg (s := s.setPending rest) hs hi ha

end

/-! ### Reading back a store -/

/-- A field of `n` bits, read as a register, is the stored word with its reserved bits cleared (10_state.md R20). -/
theorem setWidth_setWidth_eq_and (n : Nat) (v : Word) : (v.setWidth n).setWidth 32 = v &&& BitVec.ofNat 32 (2 ^ n - 1) := by
  apply BitVec.eq_of_getLsbD_eq
  intro i hi
  rw [BitVec.getLsbD_setWidth, BitVec.getLsbD_setWidth, BitVec.getLsbD_and, BitVec.getLsbD_ofNat, Nat.testBit_two_pow_sub_one]
  simp [hi, Bool.and_comm]

/-- A register a host may store to reads back the stored word without its reserved bits (10_state.md R20, R25 to R50). -/
theorem readReg_storeReg {r : Reg} (h : regAccess r = .rw ∨ regAccess r = .locked) (v : Word) (s : State) :
    readReg r (storeReg r v s) = v &&& fieldMask r := by
  cases r
  case scfgOff i =>
    calc offsetSlot (setOffsetSlot s.scfg.off i v) i = v := by rw [offsetSlot_set, if_pos rfl]
      _ = v &&& 0xFFFFFFFF#32 := BitVec.and_allOnes.symm
  case callHi | chan | subsq | ucallHi | scfgCallHi | scfgChan => exact setWidth_setWidth_eq_and 16 v
  case power | upower => exact setWidth_setWidth_eq_and 8 v
  case flags | scfgCtrl => exact setWidth_setWidth_eq_and 2 v
  case scfgTmin | scfgNoff => exact setWidth_setWidth_eq_and 4 v
  case snsValid => exact setWidth_setWidth_eq_and 6 v
  all_goals first
    | exact (BitVec.and_allOnes (x := v)).symm
    | simp [regAccess] at h

/-- A write to an L register in Init stores (43_scheduler.md R246). -/
theorem writeRegister_locked_of_init {r : Reg} {s : State} (h : regAccess r = .locked) (hs : s.sched.state = .init) (v : Word) :
    writeRegister r v s = .next (storeReg r v s) := by
  simp [writeRegister, h, hs]

/-! ### The obligation -/

/-- Settles O13: the access code L admits a store in Init alone, no command and no other store writes the configuration, and so
outside Init only the reset pin is left to change it. -/
theorem configurationLock : Obligations.ConfigurationLock := by
  unfold Obligations.ConfigurationLock
  refine ⟨fun s r v hr hlocked => ⟨fun hs => ?_, fun hs => ?_⟩, fun s t hs hpending h => step_scfg hs hpending h⟩
  · rw [deliver_write hr, memWrite_regOffset, writeRegister_locked_of_init hlocked hs]
    exact ⟨_, rfl, readReg_storeReg (.inr hlocked) v s⟩
  · rw [deliver_write hr, memWrite_regOffset, writeRegister_locked_of_ne_init hlocked hs]
    rfl

end Sys2Proof.Machine
end

section
/-! SCHED_TICK, state by state: what it leaves in Init, in the waiting states, in AwaitPps and in Transmitting (43_scheduler.md R249
to R251, R260 to R267), with the proofs of O42, O43, O44, O48, O49 and O50. -/

namespace Sys2Proof.Machine

/-! ### One tick by its state -/

section
variable {s : State}

/-- A tick in Init (43_scheduler.md R249). -/
theorem exec_schedTick_init (hs : s.sched.state = .init) :
    exec .schedTick s = .next (tickInit s.sched.ppsCount (succeed s)) := by
  simp only [exec, execSchedTick, hs]

/-- A tick in WaitForTime (43_scheduler.md R248, R250). -/
theorem exec_schedTick_waitForTime (hs : s.sched.state = .waitForTime) :
    exec .schedTick s = .next (samplePps s.sched.ppsCount (tickWaitForTime s.sched.ppsCount (succeed s))) := by
  simp only [exec, execSchedTick, hs]

/-- A tick in WaitForFix (43_scheduler.md R248, R251). -/
theorem exec_schedTick_waitForFix (hs : s.sched.state = .waitForFix) :
    exec .schedTick s = .next (samplePps s.sched.ppsCount (tickWaitForFix (succeed s))) := by
  simp only [exec, execSchedTick, hs]

/-- A tick in WaitForTransmit (43_scheduler.md R248, R260, R261). -/
theorem exec_schedTick_waitForTransmit (hs : s.sched.state = .waitForTransmit) :
    exec .schedTick s = .next (samplePps s.sched.ppsCount (tickWaitForTransmit (succeed s))) := by
  simp only [exec, execSchedTick, hs]

/-- A tick in AwaitPps (43_scheduler.md R248, R263). -/
theorem exec_schedTick_awaitPps (hs : s.sched.state = .awaitPps) :
    exec .schedTick s = .next (samplePps s.sched.ppsCount (tickAwaitPps s.sched.ppsCount (succeed s))) := by
  simp only [exec, execSchedTick, hs]

/-- A tick in Transmitting (43_scheduler.md R248, R267). -/
theorem exec_schedTick_transmitting (hs : s.sched.state = .transmitting) :
    exec .schedTick s = .next (samplePps s.sched.ppsCount (tickTransmitting (succeed s))) := by
  simp only [exec, execSchedTick, hs]

end

/-! ### The registers a tick tests -/

/-- Bit 10 of STATUS is the live CFG_ERR (10_state.md R24, 43_scheduler.md R247). -/
theorem getLsbD_status_cfgErr (s : State) : (readReg .status s).getLsbD 10 = cfgErr s := by
  show (0#8 ++ statusCode s.schedErrCode ++ 0#5 ++ BitVec.ofBool (cfgErr s) ++ BitVec.ofBool s.schedErr ++
    BitVec.ofBool s.accessErr ++ statusCode s.lastErr : BitVec (8 + 8 + 5 + 1 + 1 + 1 + 8)).getLsbD 10 = cfgErr s
  simp only [BitVec.getLsbD_append]
  simp

/-- There is no fix exactly when FIX_LAT and FIX_LON both read 0 (43_scheduler.md R251, R260). -/
theorem noFix_iff (s : State) : noFix s.fix = true ↔ readReg .fixLat s = 0#32 ∧ readReg .fixLon s = 0#32 := by
  simp [noFix, readReg]

/-- TX_CURSOR reads as the cursor's number (10_state.md R52). -/
@[simp] theorem toNat_readReg_txCursor (s : State) : (readReg .txCursor s).toNat = s.sched.cursor.toNat :=
  BitVec.toNat_setWidth_of_le (by decide)

/-- OFF_INDEX reads as the index's number (10_state.md R56). -/
@[simp] theorem toNat_readReg_offIndex (s : State) : (readReg .offIndex s).toNat = s.sched.offIndex.toNat :=
  BitVec.toNat_setWidth_of_le (by decide)

/-- SCFG_NOFF reads as the number of active slots (10_state.md R47). -/
@[simp] theorem toNat_readReg_scfgNoff (s : State) : (readReg .scfgNoff s).toNat = s.scfg.noff.toNat :=
  BitVec.toNat_setWidth_of_le (by decide)

/-! ### Init, WaitForTime, WaitForFix -/

/-- A row of the transition table that may fire is a move to its target or to the state as it is (43_scheduler.md R241). -/
theorem ite_moveTo (c : Prop) [Decidable c] (x : SchedState) (s : State) :
    (if c then moveTo x s else s) = moveTo (if c then x else s.sched.state) s := by
  split <;> rfl

/-- Settles O42: STATUS bit 10 is the test `tickInit` makes, and either branch is the state written out. -/
theorem tickInInit : Obligations.TickInInit := by
  unfold Obligations.TickInInit
  intro s hs
  rw [getLsbD_status_cfgErr, exec_schedTick_init hs]
  constructor
  · intro (hc : cfgErr (succeed s) = true)
    rw [tickInit, if_pos hc]
    rfl
  · intro (hc : cfgErr (succeed s) = false)
    rw [tickInit, hc]
    rfl

/-- Settles O43: the tick's test is the statement's, on numbers that do not wrap; where it fails the state is WaitForTime already. -/
theorem tickInWaitForTime : Obligations.TickInWaitForTime := by
  unfold Obligations.TickInWaitForTime
  intro s hs
  have hstate : (succeed s).sched.state = .waitForTime := hs
  rw [exec_schedTick_waitForTime hs, tickWaitForTime, ite_moveTo, hstate]
  rfl

/-- RADIO_CFGD stays 1 at every tick (43_scheduler.md R251). -/
theorem TickEffect.radioCfgd {s t : State} (h : TickEffect s t) (hs : s.sched.radioCfgd = true) : t.sched.radioCfgd = true := by
  cases h with
  | t3 => rw [configureRadioOnce_eq]; rfl
  | t4 m =>
    obtain ⟨-, hradio⟩ := commitMessage_frame m (succeed s)
    exact hradio.trans hs
  | _ => exact hs

/-- No command but SCHED_RESET clears RADIO_CFGD (43_scheduler.md R251). -/
theorem exec_radioCfgd {i : Instr} {s t : State} (h : exec i s = .next t) (hi : i ≠ .schedReset) (hs : s.sched.radioCfgd = true) :
    t.sched.radioCfgd = true := by
  cases i with
  | schedTick => exact (tickEffect_of_exec h).radioCfgd hs
  | toneTick =>
    obtain ⟨-, hradio⟩ := toneTick_frame h
    exact hradio.trans hs
  | ppsEdge => cases h; exact hs
  | schedReset => exact absurd rfl hi
  | _ =>
    rw [exec_codecUnit (by decide) h]
    exact hs

/-- Settles O44: `noFix` is the tick's test and `configureRadioOnce` its effect on RADIO_CFGD and the trace. -/
theorem tickInWaitForFix : Obligations.TickInWaitForFix := by
  unfold Obligations.TickInWaitForFix
  refine ⟨fun s hs => ?_, fun i s t h hi hradio => exec_radioCfgd h hi hradio⟩
  rw [exec_schedTick_waitForFix hs]
  constructor
  · intro hfix
    have hsome : ¬ noFix (succeed s).fix = true := fun h => not_and_or.mpr hfix ((noFix_iff s).mp h)
    rw [tickWaitForFix, if_neg hsome, configureRadioOnce_eq]
    rfl
  · intro hlat hlon
    have hnone : noFix (succeed s).fix = true := (noFix_iff s).mpr ⟨hlat, hlon⟩
    rw [tickWaitForFix, if_pos hnone]
    rfl

/-! ### WaitForTransmit -/

/-- Settles O48: the fix is tested first, then the slot; where both tests leave it the state is WaitForTransmit already. -/
theorem tickInWaitForTransmit : Obligations.TickInWaitForTransmit := by
  unfold Obligations.TickInWaitForTransmit
  intro s hs
  rw [← noFix_iff, exec_schedTick_waitForTransmit hs]
  constructor
  · intro (hnone : noFix (succeed s).fix = true)
    rw [tickWaitForTransmit, if_pos hnone]
    rfl
  · intro (hsome : ¬ noFix (succeed s).fix = true)
    have hstate : (succeed s).sched.state = .waitForTransmit := hs
    rw [tickWaitForTransmit, if_neg hsome, ite_moveTo, hstate]
    rfl

/-! ### AwaitPps -/

/-- Sampling a count that PPS_LAST holds already changes nothing (43_scheduler.md R248). -/
theorem samplePps_of_ppsLast {s : State} {p : Word} (h : s.sched.ppsLast = p) : samplePps p s = s := by
  subst h
  rfl

/-- With at most 8 active slots the rotated index is the remainder itself (43_scheduler.md R266). -/
theorem toNat_nextOffIndex {c : ScfgRegs} (h : cfgValid c = true) (i : BitVec 3) :
    (nextOffIndex c i).toNat = (i.toNat + 1) % c.noff.toNat ∧ (nextOffIndex c i).toNat < c.noff.toNat := by
  obtain ⟨hpos, hle⟩ := noff_of_cfgValid h
  have hlt : (i.toNat + 1) % c.noff.toNat < c.noff.toNat := Nat.mod_lt _ hpos
  have hnext : (nextOffIndex c i).toNat = (i.toNat + 1) % c.noff.toNat := Nat.mod_eq_of_lt (by omega)
  exact ⟨hnext, by rwa [hnext]⟩

/-- The slot OFF_INDEX selects, as a register (43_scheduler.md R265). -/
theorem readReg_scfgOff_offIndex (s : State) :
    readReg (.scfgOff (Fin.ofNat 8 (readReg .offIndex s).toNat)) s = offsetSlot s.scfg.off s.sched.offIndex.toFin := by
  have hslot : Fin.ofNat 8 (readReg .offIndex s).toNat = s.sched.offIndex.toFin := by
    apply Fin.ext
    rw [toNat_readReg_offIndex]
    exact Nat.mod_eq_of_lt s.sched.offIndex.isLt
  rw [hslot]
  rfl

/-- Settles O49: outside Init the invariant makes the configuration valid, so NOFF is 1 to 8 and the rotation is exact; the rest of
arming is written out. Without an edge PPS_LAST holds the count already. -/
theorem armOnPpsEdge : Obligations.ArmOnPpsEdge := by
  unfold Obligations.ArmOnPpsEdge
  intro s hinv hs
  rw [exec_schedTick_awaitPps hs]
  constructor
  · intro (hedge : s.sched.ppsCount ≠ (succeed s).sched.ppsLast)
    obtain ⟨hnext, hlt⟩ := toNat_nextOffIndex (hinv.cfg_valid (by simp [hs])) s.sched.offIndex
    refine ⟨nextOffIndex s.scfg s.sched.offIndex, ?_, ?_, ?_⟩
    · rw [toNat_readReg_offIndex, toNat_readReg_scfgNoff, hnext]
    · rwa [toNat_readReg_scfgNoff]
    · rw [tickAwaitPps, if_pos hedge, readReg_scfgOff_offIndex]
      rfl
  · intro (hsame : s.sched.ppsCount = (succeed s).sched.ppsLast)
    rw [tickAwaitPps, if_neg (not_not.mpr hsame), samplePps_of_ppsLast hsame.symm]
    rfl

/-! ### Transmitting -/

/-- Settles O50: the tick's test is on the cursor TX_CURSOR reads as; no other register is tested. -/
theorem tickInTransmitting : Obligations.TickInTransmitting := by
  unfold Obligations.TickInTransmitting
  intro s hs
  have hcursor : (readReg .txCursor s).toNat = 162 ↔ (succeed s).sched.cursor = 162#8 := by
    rw [toNat_readReg_txCursor, ← BitVec.toNat_inj]
    rfl
  rw [Ne, hcursor, exec_schedTick_transmitting hs, tickTransmitting]
  constructor
  · intro hdone
    rw [if_pos hdone]
    rfl
  · intro hleft
    rw [if_neg hleft]
    rfl

end Sys2Proof.Machine
end

section
/-! TONE_TICK on the registers the host reads, PPS_EDGE, NOP and SCHED_RESET (43_scheduler.md R270 to R287), with the proofs of O52
and O53. -/

namespace Sys2Proof.Machine

/-! ### The symbol a tone tick keys -/

/-- Symbol k of a symbol buffer stands in word k // 16, at bits 2(k mod 16)+1 and 2(k mod 16) (10_state.md R41, R60). -/
theorem extractLsb'_bufWord (x : BitVec 324) (k : Nat) : (bufWord x (k / 16)).extractLsb' (2 * (k % 16)) 2 = symbolAt x k := by
  apply BitVec.eq_of_getLsbD_eq
  intro i hi
  have hword : 2 * (k % 16) + i < 32 := by omega
  have hbit : 32 * (k / 16) + (2 * (k % 16) + i) = 2 * k + i := by omega
  rw [BitVec.getLsbD_extractLsb', getLsbD_bufWord, getLsbD_symbolAt, hbit]
  simp [hword]

/-- The symbol under a cursor below 162, as the host finds it in the TXBUF registers (43_scheduler.md R273). -/
theorem extractLsb'_readReg_txbuf {k : Nat} (hk : k < 162) (s : State) :
    (readReg (.txbuf (Fin.ofNat 11 (k / 16))) s).extractLsb' (2 * (k % 16)) 2 = symbolAt s.txbuf k := by
  have hw : (Fin.ofNat 11 (k / 16)).val = k / 16 := Nat.mod_eq_of_lt (by omega)
  show (bufWord s.txbuf (Fin.ofNat 11 (k / 16)).val).extractLsb' (2 * (k % 16)) 2 = _
  rw [hw, extractLsb'_bufWord]

/-- A tone offset is the wrapped sum of its numbers (43_scheduler.md R274, R276). -/
theorem ofNat_toneOffset (base : Word) (sym : BitVec 2) :
    BitVec.ofNat 32 (base.toNat + sym.toNat * 1465) = toneOffset base sym := by
  rw [toneOffset, BitVec.ofNat_add, BitVec.ofNat_mul, BitVec.ofNat_toNat, BitVec.ofNat_toNat, BitVec.setWidth_eq]
  rfl

/-! ### An active tone tick by the cursor's number -/

section
variable {c : SchedRegs} (off : Word)

/-- The cursor reaches 162 exactly from 161 (43_scheduler.md R278). -/
theorem cursor_succ_eq_162_iff {x : Byte} : x + 1 = 162#8 ↔ x.toNat = 161 := by
  show x + 1#8 = 162#8 ↔ _
  rw [← BitVec.toNat_inj, BitVec.toNat_add, BitVec.toNat_ofNat, BitVec.toNat_ofNat]
  omega

/-- The cursor is 0 exactly as a number (43_scheduler.md R272). -/
theorem cursor_eq_zero_iff {x : Byte} : x = 0#8 ↔ x.toNat = 0 := by
  rw [← BitVec.toNat_inj]
  rfl

/-- The SCHED registers after a tone tick, by the cursor's number (43_scheduler.md R272, R277, R278). -/
theorem keyedRegs_eq_of_toneRun (h : c.toneRun = true) : keyedRegs c off = { c with
    cursor := BitVec.ofNat 8 (c.cursor.toNat + 1)
    toneLast := off
    rfOn := if c.cursor.toNat = 161 then false else if c.cursor.toNat = 0 then true else c.rfOn
    toneRun := if c.cursor.toNat = 161 then false else true } := by
  have hsucc : c.cursor + 1 = BitVec.ofNat 8 (c.cursor.toNat + 1) := by
    rw [BitVec.ofNat_add, BitVec.ofNat_toNat, BitVec.setWidth_eq]
    rfl
  simp only [keyedRegs, cursor_succ_eq_162_iff, cursor_eq_zero_iff, h]
  rw [hsucc]

/-- The events of a tone tick, by the cursor's number (43_scheduler.md R272, R274, R278). -/
theorem keyedEvents_eq : keyedEvents c off =
    (if c.cursor.toNat = 0 then [.rfEnable true] else []) ++ [.setTone off c.txCorr] ++
      (if c.cursor.toNat = 161 then [.rfEnable false, .toneClock false] else []) := by
  simp only [keyedEvents, cursor_succ_eq_162_iff, cursor_eq_zero_iff]

end

/-- Settles O52: `toneActive` is the statement's condition, and an active tick is `keyedRegs` and `keyedEvents` on the symbol under
the cursor, read through the TXBUF words. -/
theorem toneTickKeysASymbol : Obligations.ToneTickKeysASymbol := by
  unfold Obligations.ToneTickKeysASymbol
  intro s c sym off
  have hc : c = s.sched.cursor.toNat := toNat_readReg_txCursor s
  constructor
  · intro hs hrun hlt
    rw [hc] at hlt
    have hsym : sym = currentSymbol s := by
      simp only [sym, hc]
      exact extractLsb'_readReg_txbuf hlt s
    have hoff : toneOffset s.sched.txBase (currentSymbol s) = off := by
      rw [← hsym]
      exact (ofNat_toneOffset _ _).symm
    rw [exec_toneTick_of_active ((toneActive_iff _).mpr ⟨hs, hrun, hlt⟩), hoff, keyedRegs_eq_of_toneRun off hrun,
      keyedEvents_eq off, ← hc]
    rfl
  · intro hinactive
    rw [hc] at hinactive
    rw [exec_toneTick_of_inactive (mt (toneActive_iff _).mp hinactive)]
    rfl

/-! ### What SCHED_RESET leaves in the scheduler's window -/

/-- Every register is on the list of the window's registers (10_state.md section 1). -/
theorem mem_allRegs (r : Reg) : r ∈ allRegs := List.mem_of_find?_eq_some (regAt_regOffset r)

/-- The registers from offset 0x400 on are the scheduler's status, snapshot and TXBUF registers (10_state.md R51 to R60). -/
theorem mem_schedRegNames_of_offset {r : Reg} (h : 0x400 ≤ (regOffset r).toNat) : r ∈ schedRegNames := by
  have hbelow : ∀ q ∈ controlRegs ++ codecRegNames ++ wencRegNames ++ scfgRegNames ++ recordRegNames,
      (regOffset q).toNat < 0x400 := by decide
  obtain hr | hr := List.mem_append.mp (mem_allRegs r)
  · exact absurd h (not_le.mpr (hbelow r hr))
  · exact hr

/-- The scheduler's registers read 0 after reset (70_reset_and_hazards.md R342). -/
theorem readReg_reset_of_mem_schedRegNames : ∀ r ∈ schedRegNames, readReg r State.reset = 0#32 := by decide

/-- The scheduler's registers read from the scheduler status, the snapshot and TXBUF alone (10_state.md R51 to R60). -/
theorem readReg_congr_sched {r : Reg} (hr : r ∈ schedRegNames) {s t : State} (hsched : t.sched = s.sched) (hsnap : t.snap = s.snap)
    (htxbuf : t.txbuf = s.txbuf) : readReg r t = readReg r s := by
  cases r <;> simp [schedRegNames] at hr <;> simp only [readReg, hsched, hsnap, htxbuf]

/-- Settles O53: the three commands are the field updates the statement writes out, and what SCHED_RESET leaves in the scheduler's
registers is what hardware reset leaves there. -/
theorem edgeNopAndReset : Obligations.EdgeNopAndReset := by
  unfold Obligations.EdgeNopAndReset
  intro s
  refine ⟨?_, rfl, _, exec_schedReset s, ?_⟩
  · have hcount : BitVec.ofNat 32 ((s.sched.ppsCount.toNat + 1) % 2 ^ 32) = s.sched.ppsCount + 1 := by
      apply BitVec.eq_of_toNat_eq
      rw [BitVec.toNat_ofNat, BitVec.toNat_add, Nat.mod_mod]
      rfl
    rw [hcount]
    rfl
  · refine ⟨rfl, rfl, rfl, rfl, rfl, rfl, rfl, rfl, rfl, rfl, ⟨rfl, rfl, rfl⟩, fun r hr => ?_⟩
    have hmem := mem_schedRegNames_of_offset hr
    rw [← readReg_reset_of_mem_schedRegNames r hmem]
    exact readReg_congr_sched hmem rfl rfl rfl

end Sys2Proof.Machine
end

section
/-! LAST_ERR and errors: a command's effect does not depend on the old LAST_ERR, no other access writes it, and a command that raises
an error writes its error fields alone (60_exceptions.md R311, R312), with the proofs of O17 and O18. -/

namespace Sys2Proof.Machine

/-! ### What a command makes of the old LAST_ERR -/

/-- A command that succeeds overwrites LAST_ERR (60_exceptions.md R311). -/
theorem succeed_setLastErr (s : State) (x : Option Err) : succeed (s.setLastErr x) = succeed s := rfl

/-- A unit's command overwrites LAST_ERR, provided its result writer leaves the rest of the state as it would with another LAST_ERR
(60_exceptions.md R311). -/
theorem complete_map_setLastErr {α : Type} (write : α → State → State) (s : State) (x : Option Err)
    (hwrite : ∀ a, succeed (write a (s.setLastErr x)) = succeed (write a s)) (r : Except Err α) :
    complete (s.setLastErr x) (r.map fun a => write a (s.setLastErr x)) = complete s (r.map fun a => write a s) := by
  cases r with
  | ok a => exact hwrite a
  | error e => rfl

/-- What a command leaves in the state does not depend on the old LAST_ERR (60_exceptions.md R311). -/
theorem exec_setLastErr (i : Instr) (s : State) (x : Option Err) : exec i (s.setLastErr x) = exec i s := by
  cases i with
  | locate | u4bEncCall | u4bDecCall | u4bDecEng =>
    exact congrArg Host.Outcome.next (complete_map_setLastErr _ s x (fun _ => rfl) _)
  | wsprEncode => exact congrArg Host.Outcome.next (complete_map_setLastErr (fun w u => u.setWenc w) s x (fun _ => rfl) _)
  | schedTick => simp only [exec, execSchedTick, succeed_setLastErr, State.setLastErr_sched]
  | nop | u4bEncEng | toneTick | ppsEdge | schedReset => rfl

/-! ### What an access that is no command leaves of LAST_ERR -/

/-- CMD alone has the access code WO (10_state.md R23). -/
theorem eq_cmd_of_regAccess_wo {r : Reg} (h : regAccess r = .wo) : r = .cmd := by
  cases r with
  | cmd => rfl
  | _ => cases h

/-- A read leaves LAST_ERR (60_exceptions.md R311). -/
theorem memRead_lastErr (off : Offset) (width : Nat) (s : State) : (memRead off width s).lastErr = s.lastErr := by
  unfold memRead
  split
  · split <;> rfl
  · rfl

section
variable {s t : State}

/-- A write to a register other than CMD leaves LAST_ERR (60_exceptions.md R311, R314). -/
theorem writeRegister_lastErr {r : Reg} (hr : r ≠ .cmd) {v : Word} (h : writeRegister r v s = .next t) :
    t.lastErr = s.lastErr := by
  obtain ⟨hstore, -⟩ := storeReg_frame r v s
  cases ha : regAccess r with
  | wo => exact absurd (eq_cmd_of_regAccess_wo ha) hr
  | ro => rw [writeRegister_ro ha] at h; cases h; rfl
  | rw | w1c => simp only [writeRegister, ha] at h; cases h; exact hstore
  | locked =>
    by_cases hs : s.sched.state = .init
    · rw [writeRegister_locked_of_init ha hs] at h; cases h; exact hstore
    · rw [writeRegister_locked_of_ne_init ha hs] at h; cases h; rfl

/-- A host write that is not a 4-byte write to CMD leaves LAST_ERR (60_exceptions.md R311, R314). -/
theorem memWrite_lastErr {off : Offset} {width : Nat} {v : Word} (hcmd : ¬ (off = cmdOffset ∧ width = 4))
    (h : memWrite off width v s = .next t) : t.lastErr = s.lastErr := by
  unfold memWrite at h
  split at h
  next haligned =>
    obtain ⟨-, hwidth⟩ := (accessAligned_iff off width).mp haligned
    split at h
    next r hr =>
      refine writeRegister_lastErr ?_ h
      rintro rfl
      exact hcmd ⟨(regOffset_of_regAt hr).symm, hwidth⟩
    next => cases h; rfl
  next => cases h; rfl

/-- An input that is neither a command nor the reset pin leaves LAST_ERR (60_exceptions.md R311). -/
theorem deliver_lastErr {i : Input} (hcmd : ∀ v, i ≠ commandInput v) (hpps : i ≠ .ppsIn) (htone : i ≠ .toneTickIn)
    (hrst : ∀ b, i ≠ .rst b) (h : deliver i s = .next t) : t.lastErr = s.lastErr := by
  cases hr : s.inReset with
  | true =>
    rw [deliver_inReset hr] at h
    cases i with
    | rst b => exact absurd rfl (hrst b)
    | read | write | ppsIn | toneTickIn => cases h; rfl
  | false =>
    cases i with
    | read off width =>
      rw [deliver_read hr] at h
      cases h
      exact memRead_lastErr off width s
    | write off width v =>
      rw [deliver_write hr] at h
      refine memWrite_lastErr ?_ h
      rintro ⟨rfl, rfl⟩
      exact hcmd v rfl
    | ppsIn => exact absurd rfl hpps
    | toneTickIn => exact absurd rfl htone
    | rst b => exact absurd rfl (hrst b)

/-! ### What a command that raises an error changes -/

/-- A unit's command that ends with an error writes LAST_ERR alone (60_exceptions.md R312). -/
theorem complete_eq_of_error {r : Except Err State} {e : Err} (h : (complete s r).lastErr = some e) :
    complete s r = s.setLastErr (some e) := by
  obtain ⟨u, -, hu⟩ | ⟨e', -, he'⟩ := complete_cases s r
  · rw [hu] at h
    cases h
  · rw [he'] at h ⊢
    rw [← h]
    rfl

/-- A TONE_TICK raises no error (43_scheduler.md R270, R271). -/
theorem exec_toneTick_lastErr (h : exec .toneTick s = .next t) : t.lastErr = none := by
  by_cases hactive : toneActive s.sched = true
  · cases (exec_toneTick_of_active hactive).symm.trans h
    rfl
  · cases (exec_toneTick_of_inactive hactive).symm.trans h
    rfl

/-- Any command but SCHED_TICK that ends with an error writes LAST_ERR alone (60_exceptions.md R312). -/
theorem exec_eq_of_error {i : Instr} {e : Err} (hi : i ≠ .schedTick) (h : exec i s = .next t) (he : t.lastErr = some e) :
    t = s.setLastErr (some e) := by
  cases i with
  | locate | wsprEncode | u4bEncCall | u4bDecCall | u4bDecEng => cases h; exact complete_eq_of_error he
  | nop | u4bEncEng | ppsEdge | schedReset => cases h; cases he
  | toneTick => cases (exec_toneTick_lastErr h).symm.trans he
  | schedTick => exact absurd rfl hi

/-- The commit of a message leaves LAST_ERR (43_scheduler.md R258). -/
theorem commitMessage_lastErr (m : Message) (s : State) : (commitMessage m s).lastErr = s.lastErr := by
  unfold commitMessage
  dsimp only
  split <;> rfl

/-- The one-time radio configuration leaves LAST_ERR (43_scheduler.md R251). -/
theorem configureRadioOnce_lastErr (s : State) : (configureRadioOnce s).lastErr = s.lastErr := by
  rw [configureRadioOnce_eq]
  rfl

/-- A tick that ends with an error writes LAST_ERR and PPS_LAST and, on a failed build, SCHED_ERR and SCHED_ERR_CODE
(60_exceptions.md R312, R315; 43_scheduler.md R249, R259). -/
theorem TickEffect.eq_of_error {e : Err} (h : TickEffect s t) (he : t.lastErr = some e) :
    (s.sched.state = .init ∧ t = samplePps s.sched.ppsCount (raiseError e s)) ∨
    (s.sched.state = .collectTelemetry ∧ t = samplePps s.sched.ppsCount (Machine.buildFailed e s)) := by
  cases h with
  | configInvalid hs => cases he; exact .inl ⟨hs, rfl⟩
  | buildFailed e' hs => cases he; exact .inr ⟨hs, rfl⟩
  | t3 => cases (configureRadioOnce_lastErr (succeed s)).symm.trans he
  | t4 m => cases (commitMessage_lastErr m (succeed s)).symm.trans he
  | t1 | t2 | t5 | t6 | t7 | t8 | stay => cases he

end

/-! ### The obligations -/

/-- Settles O17: every command ends by writing LAST_ERR and reads it nowhere, and a write that is not 4 bytes at CMD reaches no
register or one of another access code than WO, whose store leaves LAST_ERR. -/
theorem lastErrIsTheLastCommands : Obligations.LastErrIsTheLastCommands := by
  unfold Obligations.LastErrIsTheLastCommands
  exact ⟨exec_setLastErr, fun _ _ _ hcmd hpps htone hrst h => deliver_lastErr hcmd hpps htone hrst h⟩

/-- Settles O18: a command's unit answers either its results, with LAST_ERR 0, or an error, with the old state; of the effects of a
tick only an invalid configuration in Init and a failed build end with an error. -/
theorem errorsAbortAtomically : Obligations.ErrorsAbortAtomically := by
  unfold Obligations.ErrorsAbortAtomically
  refine ⟨fun i s t e h he => ⟨fun hi => exec_eq_of_error hi h he, ?_⟩, fun s w d hr hd => ?_⟩
  · rintro rfl
    exact (tickEffect_of_exec h).eq_of_error he
  · have hrun : runCommandWord w s = .next (raiseError .illegalCommand s) := by rw [runCommandWord, hd]
    exact (deliver_commandInput hr w).trans hrun

end Sys2Proof.Machine
end

section
/-! The reset state and the sticky bits of STATUS: what every register reads after hardware reset (70_reset_and_hazards.md R342) and
what can clear ACCESS_ERR and SCHED_ERR (R351), with the proofs of O1 and O15. -/

namespace Sys2Proof.Machine

/-! ### What the registers read after reset -/

/-- The registers that do not read 0 after hardware reset (70_reset_and_hazards.md R342). -/
def nonzeroResetRegs : List Reg := [.id, .status, .scfgTmin, .scfgNoff]

/-- The words of a buffer of zeros are 0 (10_state.md R39 to R41, R60). -/
theorem bufWord_zero {n : Nat} (w : Nat) : bufWord (0 : BitVec n) w = 0#32 := by
  simp [bufWord]

/-- The offset slots are 0 after hardware reset (70_reset_and_hazards.md R342). -/
theorem offsetSlot_reset : ∀ i : Fin 8, offsetSlot ScfgRegs.reset.off i = 0#32 := by decide

/-- Every other register reads 0 after hardware reset (70_reset_and_hazards.md R342). -/
theorem readReg_reset_eq_zero {r : Reg} (hr : r ∉ nonzeroResetRegs) : readReg r State.reset = 0#32 := by
  cases r with
  | id | status | scfgTmin | scfgNoff => exact absurd (by simp [nonzeroResetRegs]) hr
  | fecbuf w | ilvbuf w | symbuf w | txbuf w => exact bufWord_zero w.val
  | scfgOff i => exact offsetSlot_reset i
  | _ => rfl

/-- After hardware reset STATUS reads CFG_ERR alone: the configuration has no callsign (70_reset_and_hazards.md R342,
43_scheduler.md R247). -/
theorem readReg_status_reset : readReg .status State.reset = 0x00000400#32 := by decide

/-- Settles O1: four registers have values of their own, every other shows a field that is 0 at reset, and the reset state has no
input pending. -/
theorem resetState : Obligations.ResetState := by
  unfold Obligations.ResetState
  refine ⟨fun r => ?_, rfl, step_nil rfl⟩
  split_ifs with hid hstatus htmin hnoff
  · subst hid; rfl
  · subst hstatus; exact readReg_status_reset
  · subst htmin; rfl
  · subst hnoff; rfl
  · exact readReg_reset_eq_zero (by simp [nonzeroResetRegs, hid, hstatus, htmin, hnoff])

/-! ### What keeps the sticky bits -/

/-- Each sticky bit of STATUS that is 1 in `s` is 1 in `t` (70_reset_and_hazards.md R351). -/
structure StickyKept (s t : State) : Prop where
  accessErr : s.accessErr = true → t.accessErr = true
  schedErr : s.schedErr = true → t.schedErr = true

section
variable {s t : State}

/-- Two bits that are equal in both states are kept. -/
theorem StickyKept.of_eq (haccess : t.accessErr = s.accessErr) (hsched : t.schedErr = s.schedErr) : StickyKept s t :=
  ⟨haccess.trans, hsched.trans⟩

/-- An access error keeps both bits: it sets one of them (60_exceptions.md R314). -/
theorem stickyKept_accessError (s : State) : StickyKept s (accessError s) := ⟨fun _ => rfl, id⟩

/-- The commit of a message leaves both bits (43_scheduler.md R258). -/
theorem commitMessage_sticky (m : Message) (s : State) :
    (commitMessage m s).accessErr = s.accessErr ∧ (commitMessage m s).schedErr = s.schedErr := by
  unfold commitMessage
  dsimp only
  split <;> exact ⟨rfl, rfl⟩

/-- A tick keeps both bits: a failed build sets SCHED_ERR and no other effect writes either (43_scheduler.md R241, R259). -/
theorem TickEffect.stickyKept (h : TickEffect s t) : StickyKept s t := by
  cases h with
  | buildFailed => exact ⟨id, fun _ => rfl⟩
  | t3 => rw [configureRadioOnce_eq]; exact .of_eq rfl rfl
  | t4 m =>
    obtain ⟨haccess, hsched⟩ := commitMessage_sticky m (succeed s)
    exact .of_eq haccess hsched
  | _ => exact .of_eq rfl rfl

/-- Every command keeps both bits, SCHED_RESET among them (70_reset_and_hazards.md R351). -/
theorem exec_stickyKept {i : Instr} (h : exec i s = .next t) : StickyKept s t := by
  cases i with
  | schedTick => exact (tickEffect_of_exec h).stickyKept
  | toneTick =>
    by_cases hactive : toneActive s.sched = true
    · cases (exec_toneTick_of_active hactive).symm.trans h
      exact .of_eq rfl rfl
    · cases (exec_toneTick_of_inactive hactive).symm.trans h
      exact .of_eq rfl rfl
  | ppsEdge => cases h; exact .of_eq rfl rfl
  | schedReset =>
    cases (exec_schedReset s).symm.trans h
    exact .of_eq rfl rfl
  | _ =>
    rw [exec_codecUnit (by decide) h]
    exact .of_eq rfl rfl

/-- A word written to CMD keeps both bits, whether it selects a command or not (30_encoding.md R90, R92). -/
theorem runCommandWord_stickyKept {w : Word} (h : runCommandWord w s = .next t) : StickyKept s t := by
  unfold runCommandWord at h
  split at h
  · exact exec_stickyKept h
  · cases h; exact .of_eq rfl rfl

/-- A store to any register but STATUS leaves both bits (10_state.md R24). -/
theorem stickyKept_storeReg {r : Reg} (hr : r ≠ .status) (v : Word) (s : State) : StickyKept s (storeReg r v s) := by
  cases r with
  | status => exact absurd rfl hr
  | _ => exact .of_eq rfl rfl

/-- A write to any register but STATUS keeps both bits (70_reset_and_hazards.md R351). -/
theorem writeRegister_stickyKept {r : Reg} (hr : r ≠ .status) {v : Word} (h : writeRegister r v s = .next t) :
    StickyKept s t := by
  cases ha : regAccess r with
  | wo => simp only [writeRegister, ha] at h; exact runCommandWord_stickyKept h
  | ro => rw [writeRegister_ro ha] at h; cases h; exact stickyKept_accessError s
  | rw | w1c => simp only [writeRegister, ha] at h; cases h; exact stickyKept_storeReg hr v s
  | locked =>
    by_cases hs : s.sched.state = .init
    · rw [writeRegister_locked_of_init ha hs] at h; cases h; exact stickyKept_storeReg hr v s
    · rw [writeRegister_locked_of_ne_init ha hs] at h; cases h; exact stickyKept_accessError s

/-- A host write that is not a 4-byte write to STATUS keeps both bits (70_reset_and_hazards.md R351). -/
theorem memWrite_stickyKept {off : Offset} {width : Nat} {v : Word} (hstatus : ¬ (off = regOffset .status ∧ width = 4))
    (h : memWrite off width v s = .next t) : StickyKept s t := by
  unfold memWrite at h
  split at h
  next haligned =>
    obtain ⟨-, hwidth⟩ := (accessAligned_iff off width).mp haligned
    split at h
    next r hr =>
      refine writeRegister_stickyKept ?_ h
      rintro rfl
      exact hstatus ⟨(regOffset_of_regAt hr).symm, hwidth⟩
    next => cases h; exact stickyKept_accessError s
  next => cases h; exact stickyKept_accessError s

/-- A read keeps both bits: it sets ACCESS_ERR or leaves both (20_memory.md R71 to R74). -/
theorem stickyKept_memRead (off : Offset) (width : Nat) (s : State) : StickyKept s (memRead off width s) := by
  unfold memRead
  split
  · split
    · exact .of_eq rfl rfl
    · exact ⟨fun _ => rfl, id⟩
  · exact ⟨fun _ => rfl, id⟩

/-- With `rst` released, only a write to STATUS and the reset pin may clear either bit (70_reset_and_hazards.md R351). -/
theorem acceptInput_stickyKept {i : Input} (hstatus : ∀ v, i ≠ .write (regOffset .status) 4 v) (hrst : ∀ b, i ≠ .rst b)
    (h : acceptInput i s = .next t) : StickyKept s t := by
  cases i with
  | read off width => cases h; exact stickyKept_memRead off width s
  | write off width v =>
    refine memWrite_stickyKept ?_ h
    rintro ⟨rfl, rfl⟩
    exact hstatus v rfl
  | ppsIn => exact exec_stickyKept (i := .ppsEdge) h
  | toneTickIn => exact exec_stickyKept (i := .toneTick) h
  | rst b => exact absurd rfl (hrst b)

end

/-! ### The other inputs -/

/-- While `rst` is asserted every input but the reset pin is lost (70_reset_and_hazards.md R340; log 4). -/
theorem deliver_eq_self_of_inReset {s : State} (hr : s.inReset = true) {i : Input} (hrst : ∀ b, i ≠ .rst b) :
    deliver i s = .next s := by
  rw [deliver_inReset hr]
  cases i with
  | rst b => exact absurd rfl (hrst b)
  | read | write | ppsIn | toneTickIn => rfl

/-- With `rst` released an input does what `acceptInput` says. -/
theorem deliver_of_released {s : State} (hr : s.inReset = false) (i : Input) : deliver i s = acceptInput i s := by
  simp [deliver, hr]

/-- A write to STATUS clears the bits written as 1 and does nothing else (10_state.md R24). -/
theorem deliver_write_status {s : State} (hr : s.inReset = false) (v : Word) :
    deliver (.write (regOffset .status) 4 v) s = .next (writeStatus v s) := by
  rw [deliver_write hr, memWrite_regOffset]
  rfl

/-- A write of 0 to bit 8 of STATUS keeps ACCESS_ERR (10_state.md R24). -/
theorem writeStatus_keeps_accessErr {v : Word} {s : State} (hs : s.accessErr = true) (hv : v.getLsbD 8 = false) :
    (writeStatus v s).accessErr = true := by
  rw [writeStatus, hs, hv]
  rfl

/-- A write of 0 to bit 9 of STATUS keeps SCHED_ERR (10_state.md R24). -/
theorem writeStatus_keeps_schedErr {v : Word} {s : State} (hs : s.schedErr = true) (hv : v.getLsbD 9 = false) :
    (writeStatus v s).schedErr = true := by
  rw [writeStatus, hs, hv]
  rfl

/-- Settles O15: an input is lost, or writes STATUS and clears what it writes 1 to, or is one of the others, none of which
clears either bit. -/
theorem stickyStatusBits : Obligations.StickyStatusBits := by
  unfold Obligations.StickyStatusBits
  intro s t i rest hp hrst h
  rw [step_cons hp] at h
  cases hr : (s.setPending rest).inReset with
  | true =>
    rw [deliver_eq_self_of_inReset hr hrst] at h
    cases h
    exact ⟨fun haccess _ => haccess, fun hsched _ => hsched⟩
  | false =>
    by_cases hstatus : ∃ v, i = .write (regOffset .status) 4 v
    · obtain ⟨v, rfl⟩ := hstatus
      rw [deliver_write_status hr] at h
      cases h
      exact ⟨fun haccess hv => writeStatus_keeps_accessErr haccess (hv v rfl),
        fun hsched hv => writeStatus_keeps_schedErr hsched (hv v rfl)⟩
    · rw [deliver_of_released hr] at h
      obtain ⟨haccess, hsched⟩ := acceptInput_stickyKept (not_exists.mp hstatus) hrst h
      exact ⟨fun ha _ => haccess ha, fun hs _ => hsched hs⟩

end Sys2Proof.Machine
end

section
/-! The invariant: it holds at reset, and every step keeps it (10_state.md R52 to R60; 43_scheduler.md R246 to R289), with the proofs
of O3 and O4. -/

namespace Sys2Proof.Machine

/-! ### At reset, and along changes the invariant does not see -/

/-- Settles O3: in Init with no message, the cursor at 0, both levels off and an empty trace. -/
theorem invHoldsAtReset : Obligations.InvHoldsAtReset where
  cursor_le := by decide
  toneRun_iff := rfl
  rfOn_iff := rfl
  msgValid_iff := rfl
  cfg_valid h := absurd rfl h
  offIndex_lt h := absurd rfl h
  offIndex_init _ := rfl
  txBase_le h := by cases h
  txbuf_encodes h := by cases h
  rf_level := rfl
  clock_level := rfl

/-- Hardware reset establishes the invariant, whatever the state (70_reset_and_hazards.md R340, R342). -/
theorem inv_hardReset (asserted : Bool) (s : State) : Inv (hardReset asserted s) :=
  Inv.congr invHoldsAtReset rfl rfl rfl rfl

/-- In Init the invariant says nothing of the configuration (43_scheduler.md R246). -/
theorem Inv.congr_of_init {s t : State} (h : Inv s) (hs : s.sched.state = .init) (hsched : t.sched = s.sched)
    (htxbuf : t.txbuf = s.txbuf) (htrace : t.trace = s.trace) : Inv t where
  cursor_le := by rw [hsched]; exact h.cursor_le
  toneRun_iff := by rw [hsched]; exact h.toneRun_iff
  rfOn_iff := by rw [hsched]; exact h.rfOn_iff
  msgValid_iff := by rw [hsched]; exact h.msgValid_iff
  cfg_valid ht := by rw [hsched] at ht; exact absurd hs ht
  offIndex_lt ht := by rw [hsched] at ht; exact absurd hs ht
  offIndex_init _ := by rw [hsched]; exact h.offIndex_init hs
  txBase_le := by rw [hsched]; exact h.txBase_le
  txbuf_encodes := by rw [hsched, htxbuf]; exact h.txbuf_encodes
  rf_level := by rw [hsched, htrace]; exact h.rf_level
  clock_level := by rw [hsched, htrace]; exact h.clock_level

/-- A store keeps the invariant: it writes no scheduler register, and the configuration in Init alone (43_scheduler.md R246). -/
theorem inv_storeReg {s : State} (h : Inv s) {r : Reg}
    (hr : regAccess r = .rw ∨ regAccess r = .w1c ∨ regAccess r = .locked ∧ s.sched.state = .init) (v : Word) :
    Inv (storeReg r v s) := by
  obtain ⟨-, -, -, hsched, -, htxbuf, htrace, -⟩ := storeReg_frame r v s
  obtain ha | ha | ⟨-, hs⟩ := hr
  · exact h.congr hsched (storeReg_scfg (by simp [ha]) v s) htxbuf htrace
  · exact h.congr hsched (storeReg_scfg (by simp [ha]) v s) htxbuf htrace
  · exact h.congr_of_init hs hsched htxbuf htrace

/-! ### Commands that key no symbol and arm nothing -/

/-- What the rows of the transition table other than T7 leave of the registers the invariant ties together: the cursor, both levels
with their events, the offset index, the latched base and the configuration (43_scheduler.md R241). -/
structure TonesKept (s t : State) : Prop where
  cursor : t.sched.cursor = s.sched.cursor
  toneRun : t.sched.toneRun = s.sched.toneRun
  rfOn : t.sched.rfOn = s.sched.rfOn
  offIndex : t.sched.offIndex = s.sched.offIndex
  txBase : t.sched.txBase = s.sched.txBase
  scfg : t.scfg = s.scfg
  rf_level : rfLevel t.trace = rfLevel s.trace
  clock_level : clockLevel t.trace = clockLevel s.trace

/-- The message registers encode to TXBUF (43_scheduler.md R258). -/
def MessageEncoded (s : State) : Prop :=
  ∃ w, wsprEncode s.sched.msgCallLo s.sched.msgCallHi s.sched.msgGrid s.sched.msgPower = .ok w ∧ w.sym = s.txbuf

/-- A transmission has symbols left (43_scheduler.md R264, R278). -/
def symbolsLeft (c : SchedRegs) : Bool := decide (c.state = .transmitting) && decide (c.cursor.toNat < 162)

/-- A move between states keeps the invariant if it starts and ends no transmission, marks a message exactly where one is pending, and
leaves Init only with a valid configuration (43_scheduler.md R241). -/
theorem Inv.of_tonesKept {s t : State} (h : Inv s) (hkept : TonesKept s t) (hleft : symbolsLeft t.sched = symbolsLeft s.sched)
    (hvalid : t.sched.msgValid = messageState t.sched.state) (hmessage : messageState t.sched.state = true → MessageEncoded t)
    (htransmit : t.sched.state = .transmitting → s.sched.state = .transmitting)
    (hinit : t.sched.state = .init → s.sched.state = .init) (hcfg : t.sched.state ≠ .init → cfgValid s.scfg = true) : Inv t where
  cursor_le := by rw [hkept.cursor]; exact h.cursor_le
  toneRun_iff := by rw [hkept.toneRun, h.toneRun_iff]; exact hleft.symm
  rfOn_iff := by rw [hkept.rfOn, hkept.toneRun, hkept.cursor]; exact h.rfOn_iff
  msgValid_iff := hvalid
  cfg_valid ht := by rw [hkept.scfg]; exact hcfg ht
  offIndex_lt ht := by
    rw [hkept.offIndex, hkept.scfg]
    by_cases hs : s.sched.state = .init
    · rw [h.offIndex_init hs]
      exact (noff_of_cfgValid (hcfg ht)).1
    · exact h.offIndex_lt hs
  offIndex_init ht := by rw [hkept.offIndex]; exact h.offIndex_init (hinit ht)
  txBase_le ht := by rw [hkept.txBase]; exact h.txBase_le (htransmit ht)
  txbuf_encodes ht := hmessage (hvalid.symm.trans ht)
  rf_level := by rw [hkept.rfOn, hkept.rf_level]; exact h.rf_level
  clock_level := by rw [hkept.toneRun, hkept.clock_level]; exact h.clock_level

/-- A pending or in-flight message is encoded in TXBUF. -/
theorem Inv.messageEncoded {s : State} (h : Inv s) (hs : messageState s.sched.state = true) : MessageEncoded s :=
  h.txbuf_encodes (h.msgValid_iff.trans hs)

/-- The commit of a message, as field updates (43_scheduler.md R258). -/
theorem commitMessage_eq (m : Message) (s : State) :
    commitMessage m s = (((s.setSnap m.snap).setTxbuf m.sym).setSched { s.sched with
      msgCallLo := m.text.callLo, msgCallHi := m.text.callHi, msgGrid := m.text.grid, msgPower := m.text.power
      msgTelem := m.telem, msgValid := true, state := .waitForTransmit }).setTrace
        (s.trace ++ if logEnabled s.scfg then [logEvent s m.text] else []) := by
  unfold commitMessage
  dsimp only
  split
  · rfl
  · simp [State.setSched, State.setTrace, State.setSnap, State.setTxbuf]

/-- A built message is the encoding of its text (43_scheduler.md R252, R258). -/
theorem messageEncoded_commitMessage {s : State} {m : Message} (hb : buildMessage s = .ok m) : MessageEncoded (commitMessage m s) := by
  obtain ⟨-, -, loc, w, -, -, hw, hsym⟩ := buildMessage_ok hb
  rw [commitMessage_eq]
  exact ⟨w, hw, hsym⟩

/-- The commit of a message keys nothing: a log event moves neither level (43_scheduler.md R258, R289). -/
theorem tonesKept_commitMessage (m : Message) (s : State) : TonesKept s (commitMessage m s) := by
  rw [commitMessage_eq]
  refine ⟨rfl, rfl, rfl, rfl, rfl, rfl, ?_, ?_⟩
  · simp only [State.setTrace_trace, rfLevel_append]
    split <;> rfl
  · simp only [State.setTrace_trace, clockLevel_append]
    split <;> rfl

/-- The one-time radio configuration moves neither level (43_scheduler.md R251, R289). -/
theorem tonesKept_configureRadioOnce (s : State) : TonesKept s (configureRadioOnce s) := by
  rw [configureRadioOnce_eq]
  refine ⟨rfl, rfl, rfl, rfl, rfl, rfl, ?_, ?_⟩
  · simp only [State.setTrace_trace, rfLevel_append]
    split <;> rfl
  · simp only [State.setTrace_trace, clockLevel_append]
    split <;> rfl

/-! ### Arming -/

/-- Arming keeps the invariant: the slot OFF_INDEX selects is active, and the rotated index is below NOFF (43_scheduler.md R264 to
R266, R276). -/
theorem inv_arm {s : State} (h : Inv s) (hs : s.sched.state = .awaitPps) (p : Word) : Inv (samplePps p (arm s)) := by
  have hinit : s.sched.state ≠ .init := by simp [hs]
  have hcfg := h.cfg_valid hinit
  obtain ⟨-, hnext⟩ := toNat_nextOffIndex hcfg s.sched.offIndex
  have hrf : s.sched.rfOn = false := by rw [h.rfOn_iff, h.toneRun_iff, hs]; rfl
  exact {
    cursor_le := Nat.zero_le 162
    toneRun_iff := rfl
    rfOn_iff := hrf
    msgValid_iff := by rw [show (samplePps p (arm s)).sched.msgValid = s.sched.msgValid from rfl, h.msgValid_iff, hs]; rfl
    cfg_valid := fun _ => hcfg
    offIndex_lt := fun _ => hnext
    offIndex_init := fun ht => by cases ht
    txBase_le := fun _ => offset_le_of_cfgValid hcfg (h.offIndex_lt hinit)
    txbuf_encodes := fun _ => h.messageEncoded (by rw [hs]; rfl)
    rf_level := h.rf_level.trans (rfLevel_append s.trace [.toneClock true]).symm
    clock_level := (clockLevel_append s.trace [.toneClock true]).symm }

/-! ### SCHED_TICK -/

/-- Outside Transmitting no transmission has symbols left. -/
theorem symbolsLeft_of_ne {c : SchedRegs} (h : c.state ≠ .transmitting) : symbolsLeft c = false := by simp [symbolsLeft, h]

/-- Neither before nor after a change outside Transmitting has a transmission symbols left. -/
theorem symbolsLeft_eq_of_ne {c d : SchedRegs} (hd : d.state ≠ .transmitting) (hc : c.state ≠ .transmitting) :
    symbolsLeft d = symbolsLeft c := (symbolsLeft_of_ne hd).trans (symbolsLeft_of_ne hc).symm

/-- A move to a state in which no message is pending or in flight keeps the invariant, unless symbols are left
(10_state.md R55, 43_scheduler.md R241). -/
theorem Inv.of_noMessage {s t : State} (h : Inv s) (hkept : TonesKept s t) (hleft : symbolsLeft s.sched = false)
    (hvalid : t.sched.msgValid = false) (hmessage : messageState t.sched.state = false) (hinit : t.sched.state ≠ .init)
    (hcfg : cfgValid s.scfg = true) : Inv t := by
  have htransmit : t.sched.state ≠ .transmitting := by
    intro ht
    rw [ht] at hmessage
    cases hmessage
  refine h.of_tonesKept hkept ((symbolsLeft_of_ne htransmit).trans hleft.symm) (hvalid.trans hmessage.symm) ?_
    (absurd · htransmit) (absurd · hinit) fun _ => hcfg
  rw [hmessage]
  nofun

/-- Every effect of a tick keeps the invariant (43_scheduler.md R241 to R267). -/
theorem TickEffect.inv {s t : State} (he : TickEffect s t) (h : Inv s) : Inv t := by
  cases he with
  | configInvalid | buildFailed | stay =>
    exact h.of_tonesKept ⟨rfl, rfl, rfl, rfl, rfl, rfl, rfl, rfl⟩ rfl h.msgValid_iff h.messageEncoded id id h.cfg_valid
  | t1 hs hc =>
    exact h.of_noMessage ⟨rfl, rfl, rfl, rfl, rfl, rfl, rfl, rfl⟩ (symbolsLeft_of_ne (by simp [hs]))
      (h.msgValid_iff.trans (by rw [hs]; rfl)) rfl nofun (by simpa [cfgErr] using hc)
  | t2 hs =>
    exact h.of_noMessage ⟨rfl, rfl, rfl, rfl, rfl, rfl, rfl, rfl⟩ (symbolsLeft_of_ne (by simp [hs]))
      (h.msgValid_iff.trans (by rw [hs]; rfl)) rfl nofun (h.cfg_valid (by simp [hs]))
  | t3 hs =>
    obtain ⟨h1, h2, h3, h4, h5, h6, h7, h8⟩ := tonesKept_configureRadioOnce (succeed s)
    refine h.of_noMessage ⟨h1, h2, h3, h4, h5, h6, h7, h8⟩ (symbolsLeft_of_ne (by simp [hs])) ?_ rfl nofun
      (h.cfg_valid (by simp [hs]))
    have hvalid := h.msgValid_iff.trans (congrArg messageState hs)
    rw [configureRadioOnce_eq]
    exact hvalid
  | t4 m hs hb =>
    obtain ⟨h1, h2, h3, h4, h5, h6, h7, h8⟩ := tonesKept_commitMessage m (succeed s)
    have hmessage := messageEncoded_commitMessage hb
    rw [commitMessage_eq] at *
    exact h.of_tonesKept ⟨h1, h2, h3, h4, h5, h6, h7, h8⟩
      (symbolsLeft_eq_of_ne nofun (by simp [hs])) rfl (fun _ => hmessage) nofun nofun
      fun _ => h.cfg_valid (by simp [hs])
  | t5 hs =>
    exact h.of_noMessage ⟨rfl, rfl, rfl, rfl, rfl, rfl, rfl, rfl⟩ (symbolsLeft_of_ne (by simp [hs])) rfl rfl nofun
      (h.cfg_valid (by simp [hs]))
  | t6 hs =>
    exact h.of_tonesKept ⟨rfl, rfl, rfl, rfl, rfl, rfl, rfl, rfl⟩
      (symbolsLeft_eq_of_ne nofun (by simp [hs])) (h.msgValid_iff.trans (by rw [hs]; rfl))
      (fun _ => h.messageEncoded (by rw [hs]; rfl)) nofun nofun fun _ => h.cfg_valid (by simp [hs])
  | t7 hs =>
    exact inv_arm (s := succeed s) (h.congr rfl rfl rfl rfl) hs _
  | t8 hs hc =>
    exact h.of_noMessage ⟨rfl, rfl, rfl, rfl, rfl, rfl, rfl, rfl⟩ (by simp [symbolsLeft, hc]) rfl rfl nofun
      (h.cfg_valid (by simp [hs]))

/-! ### TONE_TICK, PPS_EDGE, SCHED_RESET -/

/-- The RF level after the events of a tone tick (43_scheduler.md R272, R278). -/
theorem foldl_rfAfter_keyedEvents (c : SchedRegs) (off : Word) :
    (keyedEvents c off).foldl rfAfter c.rfOn = (keyedRegs c off).rfOn := by
  by_cases h0 : c.cursor = 0#8
  · simp [keyedEvents, keyedRegs, h0, rfAfter]
  · by_cases h1 : c.cursor + 1#8 = 162#8 <;> simp [keyedEvents, keyedRegs, h0, h1, rfAfter]

/-- The tone clock after the events of a tone tick (43_scheduler.md R278). -/
theorem foldl_clockAfter_keyedEvents (c : SchedRegs) (off : Word) :
    (keyedEvents c off).foldl clockAfter c.toneRun = (keyedRegs c off).toneRun := by
  by_cases h0 : c.cursor = 0#8
  · simp [keyedEvents, keyedRegs, h0, clockAfter]
  · by_cases h1 : c.cursor + 1#8 = 162#8 <;> simp [keyedEvents, keyedRegs, h0, h1, clockAfter]

/-- After a tone tick the tone clock runs while symbols are left, and RF with it from the first symbol on (43_scheduler.md R272,
R278). -/
theorem keyedRegs_levels {c : SchedRegs} (hs : c.state = .transmitting) (hrun : c.toneRun = true) (hlt : c.cursor.toNat < 162)
    (hrf : c.rfOn = (c.toneRun && decide (0 < c.cursor.toNat))) (off : Word) :
    (keyedRegs c off).toneRun = symbolsLeft (keyedRegs c off) ∧
      (keyedRegs c off).rfOn = ((keyedRegs c off).toneRun && decide (0 < (keyedRegs c off).cursor.toNat)) := by
  have hcursor : (BitVec.ofNat 8 (c.cursor.toNat + 1)).toNat = c.cursor.toNat + 1 := Nat.mod_eq_of_lt (by omega)
  rw [keyedRegs_eq_of_toneRun off hrun]
  simp only [symbolsLeft, hs, hcursor, hrf, hrun]
  by_cases hlast : c.cursor.toNat = 161
  · simp [hlast]
  · have hmore : c.cursor.toNat + 1 < 162 := by omega
    simp [hlast, hmore]
    omega

/-- A tone tick keeps the invariant: the levels stop with the last symbol, and their events with them (43_scheduler.md R270 to
R278). -/
theorem inv_toneTick {s t : State} (h : Inv s) (ht : exec .toneTick s = .next t) : Inv t := by
  by_cases hactive : toneActive s.sched = true
  · cases (exec_toneTick_of_active hactive).symm.trans ht
    obtain ⟨hs, hrun, hlt⟩ := (toneActive_iff _).mp hactive
    obtain ⟨hclock, hrf⟩ := keyedRegs_levels hs hrun hlt h.rfOn_iff (toneOffset s.sched.txBase (currentSymbol s))
    exact {
      cursor_le := (toNat_cursor_succ hlt).trans_le hlt
      toneRun_iff := hclock
      rfOn_iff := hrf
      msgValid_iff := h.msgValid_iff
      cfg_valid := h.cfg_valid
      offIndex_lt := h.offIndex_lt
      offIndex_init := h.offIndex_init
      txBase_le := h.txBase_le
      txbuf_encodes := h.txbuf_encodes
      rf_level := by
        refine Eq.trans ?_ (rfLevel_append s.trace _).symm
        rw [← h.rf_level]
        exact (foldl_rfAfter_keyedEvents _ _).symm
      clock_level := by
        refine Eq.trans ?_ (clockLevel_append s.trace _).symm
        rw [← h.clock_level]
        exact (foldl_clockAfter_keyedEvents _ _).symm }
  · cases (exec_toneTick_of_inactive hactive).symm.trans ht
    exact h.congr rfl rfl rfl rfl

/-- A PPS edge keeps the invariant: it counts, and nothing else (43_scheduler.md R283). -/
theorem inv_ppsEdge {s t : State} (h : Inv s) (ht : exec .ppsEdge s = .next t) : Inv t := by
  cases ht
  exact h.of_tonesKept ⟨rfl, rfl, rfl, rfl, rfl, rfl, rfl, rfl⟩ rfl h.msgValid_iff h.messageEncoded id id h.cfg_valid

/-- SCHED_RESET establishes the invariant: the scheduler is as after reset, and both levels' events say off (43_scheduler.md
R287). -/
theorem inv_schedReset {s t : State} (ht : exec .schedReset s = .next t) : Inv t := by
  cases (exec_schedReset s).symm.trans ht
  exact {
    cursor_le := Nat.zero_le 162
    toneRun_iff := rfl
    rfOn_iff := rfl
    msgValid_iff := rfl
    cfg_valid := fun h => absurd rfl h
    offIndex_lt := fun h => absurd rfl h
    offIndex_init := fun _ => rfl
    txBase_le := nofun
    txbuf_encodes := nofun
    rf_level := (rfLevel_append s.trace [.rfEnable false, .toneClock false]).symm
    clock_level := (clockLevel_append s.trace [.rfEnable false, .toneClock false]).symm }

/-! ### Every step -/

/-- Every command keeps the invariant. -/
theorem exec_inv {i : Instr} {s t : State} (h : Inv s) (ht : exec i s = .next t) : Inv t := by
  cases i with
  | schedTick => exact (tickEffect_of_exec ht).inv h
  | toneTick => exact inv_toneTick h ht
  | ppsEdge => exact inv_ppsEdge h ht
  | schedReset => exact inv_schedReset ht
  | _ =>
    rw [exec_codecUnit (by decide) ht]
    exact h.congr rfl rfl rfl rfl

/-- Every effect of an input keeps the invariant. -/
theorem InputEffect.inv {s t : State} (he : InputEffect s t) (h : Inv s) : Inv t := by
  cases he with
  | command i ht => exact exec_inv h ht
  | store r v hr => exact inv_storeReg h hr v
  | reset => exact inv_hardReset true s
  | illegal | badWrite | read | badRead => exact h.congr rfl rfl rfl rfl
  | noReset => exact h

/-- Settles O4: the effects of a step, one by one. A tick moves along one row of the transition table, a tone tick advances the cursor
with both levels, SCHED_RESET and hardware reset establish the invariant anew, a store reaches the configuration in Init alone, and
everything else leaves what the invariant speaks of. -/
theorem invIsKeptByEveryStep : Obligations.InvIsKeptByEveryStep := by
  unfold Obligations.InvIsKeptByEveryStep
  intro s t h ht
  obtain ⟨u, hu, he⟩ := step_effect s
  cases hu.symm.trans ht
  cases he with
  | idle => exact h
  | held => exact h.congr rfl rfl rfl rfl
  | release => exact inv_hardReset false _
  | input i rest _ _ _ he => exact he.inv (h.congr rfl rfl rfl rfl)

end Sys2Proof.Machine
end

section
/-! One step and the reset pin: the input a step delivers, what runs always answer, and what `rst` does (20_memory.md R78, R80;
60_exceptions.md R318; 70_reset_and_hazards.md R340), with the proofs of O2, O5, O6 and O19. -/

namespace Sys2Proof.Machine

/-! ### Steps and runs -/

/-- Settles O5: `serve` takes the first input, and a word at CMD that decodes runs its command. -/
theorem stepRunsTheDecodedCommand : Obligations.StepRunsTheDecodedCommand := by
  unfold Obligations.StepRunsTheDecodedCommand
  refine ⟨fun s i rest hp => step_cons hp, fun s w i rest hr hp hd => ?_, fun s hp => step_nil hp, fun s w hw => ?_⟩
  · have hrest : (s.setPending rest).inReset = false := hr
    have hrun : runCommandWord w (s.setPending rest) = exec i (s.setPending rest) := by rw [runCommandWord, hd]
    calc step s = deliver (commandInput w) (s.setPending rest) := step_cons hp
      _ = exec i (s.setPending rest) := (deliver_commandInput hrest w).trans hrun
  · rw [State.withFetchWord, Nat.mod_eq_of_lt hw]
    rfl

/-- Settles O6: six of the words are their command's word, and 0x07 is one of R92's illegal words. -/
theorem decodedWords : Obligations.DecodedWords := by
  unfold Obligations.DecodedWords
  exact ⟨decode_encode .nop, decode_encode .locate, decode_encode .wsprEncode, decode_encode .u4bDecEng, decode_encode .schedTick,
    by decide, by decide⟩

/-- Settles O19, by induction on the number of steps: each of them answers a next state. -/
theorem nothingStopsTheMachine : Obligations.NothingStopsTheMachine := by
  unfold Obligations.NothingStopsTheMachine
  intro n
  induction n with
  | zero => exact fun s => ⟨s, rfl⟩
  | succ n ih =>
    intro s
    obtain ⟨u, hu, -⟩ := step_effect s
    obtain ⟨t, ht⟩ := ih u
    exact ⟨t, (run_succ_of_step (M := Sys2Proof.core) hu n).trans ht⟩

/-! ### The reset pin -/

/-- Settles O2: asserting `rst` resets and holds, every other input is lost meanwhile, and releasing it resets again. -/
theorem resetInput : Obligations.ResetInput := by
  unfold Obligations.ResetInput
  refine ⟨fun s hr => ⟨hardReset true s, ?_, rfl⟩, fun s i hr hi => deliver_eq_self_of_inReset hr hi,
    fun s hr => ⟨hardReset false s, ?_, rfl, rfl, rfl, rfl, fun r => ?_⟩⟩
  · rw [deliver_of_released hr]
    rfl
  · rw [deliver_inReset hr]
    rfl
  · simp only [hardReset, readReg_setInReset, readReg_setReads, readReg_setPending]

end Sys2Proof.Machine
end

section
/-! The register window: offsets and access codes, reads and stores, the words of STATUS and SCHED_FLAGS, the buffers and the strings
(10_state.md sections 1 to 7, 20_memory.md R71 to R79), with the proofs of O10, O12, O14, O16, O21 and O22. -/

namespace Sys2Proof.Machine

/-! ### Offsets and access codes -/

/-- The access code of every register by its offset (10_state.md R22 to R60). -/
theorem regAccess_iff_offset (r : Reg) :
    (regAccess r = .wo ↔ (regOffset r).toNat = 0x004) ∧ (regAccess r = .w1c ↔ (regOffset r).toNat = 0x008) ∧
    (regAccess r = .locked ↔ 0x200 ≤ (regOffset r).toNat ∧ (regOffset r).toNat < 0x300) ∧
    (regAccess r = .rw ↔ (0x010 ≤ (regOffset r).toNat ∧ (regOffset r).toNat ≤ 0x024) ∨
      (0x030 ≤ (regOffset r).toNat ∧ (regOffset r).toNat ≤ 0x058) ∨
      (0x300 ≤ (regOffset r).toNat ∧ (regOffset r).toNat < 0x400)) := by
  cases r
  case fecbuf w => revert w; decide
  case ilvbuf w => revert w; decide
  case symbuf w => revert w; decide
  case scfgOff i => revert i; decide
  case txbuf w => revert w; decide
  all_goals decide

/-- Settles O10: every register is on the list of the window's registers, whose offsets and access codes are compared one by one. -/
theorem registerMap : Obligations.RegisterMap := by
  unfold Obligations.RegisterMap
  exact ⟨fun r => ⟨mem_allRegs r, regAt_regOffset r⟩, by decide, regAccess_iff_offset⟩

/-! ### Reads and stores -/

/-- The registers a host may store to are codec registers, the records' registers and the configuration (10_state.md R25 to R50). -/
theorem mem_regNames_of_writable (r : Reg) :
    (regAccess r = .rw → r ∈ codecRegNames ∨ r ∈ recordRegNames) ∧ (regAccess r = .locked → r ∈ scfgRegNames) := by
  cases r
  case fecbuf | ilvbuf | symbuf | txbuf => exact ⟨nofun, nofun⟩
  case scfgOff i => revert i; decide
  all_goals decide

section
variable {r q : Reg} (v : Word) (s : State)

/-- A store to a codec register changes codec registers alone. -/
theorem storeReg_eq_setCodec (hr : r ∈ codecRegNames) : storeReg r v s = s.setCodec (storeReg r v s).codec := by
  fin_cases hr <;> rfl

/-- A store to a record's register changes the fix and sensor records alone. -/
theorem storeReg_eq_setFix_setSns (hr : r ∈ recordRegNames) :
    storeReg r v s = (s.setFix (storeReg r v s).fix).setSns (storeReg r v s).sns := by
  fin_cases hr <;> rfl

/-- A store to a configuration register changes the configuration alone. -/
theorem storeReg_eq_setScfg (hr : r ∈ scfgRegNames) : storeReg r v s = s.setScfg (storeReg r v s).scfg := by
  fin_cases hr <;> rfl

/-- A store to a codec register leaves what every other register reads. -/
theorem readReg_storeReg_codec (hr : r ∈ codecRegNames) (hq : q ≠ r) : readReg q (storeReg r v s) = readReg q s := by
  by_cases hmem : q ∈ codecRegNames
  · fin_cases hr <;> fin_cases hmem <;> first | rfl | exact absurd rfl hq
  · rw [storeReg_eq_setCodec v s hr, readReg_setCodec hmem]

/-- A store to a record's register leaves what every other register reads. -/
theorem readReg_storeReg_record (hr : r ∈ recordRegNames) (hq : q ≠ r) : readReg q (storeReg r v s) = readReg q s := by
  by_cases hmem : q ∈ recordRegNames
  · fin_cases hr <;> fin_cases hmem <;> first | rfl | exact absurd rfl hq
  · rw [storeReg_eq_setFix_setSns v s hr, readReg_setSns hmem, readReg_setFix hmem]

/-- A store to a configuration register leaves what every other register but STATUS reads. -/
theorem readReg_storeReg_scfg (hr : r ∈ scfgRegNames) (hq : q ≠ r) (hs : q ≠ .status) :
    readReg q (storeReg r v s) = readReg q s := by
  by_cases hmem : q ∈ scfgRegNames
  · fin_cases hr <;> fin_cases hmem <;> first | rfl | exact absurd rfl hq
  · rw [storeReg_eq_setScfg v s hr, readReg_setScfg hmem hs]

/-- A store to a register a host may store to leaves what every other register but STATUS reads (10_state.md R20). -/
theorem readsSameBut_storeReg (hr : regAccess r = .rw ∨ regAccess r = .locked) : readsSameBut [r] s (storeReg r v s) := by
  intro q hq hs
  obtain ⟨hrw, hlocked⟩ := mem_regNames_of_writable r
  have hne : q ≠ r := List.ne_of_not_mem_cons hq
  obtain ha | ha := hr
  · obtain hmem | hmem := hrw ha
    · exact readReg_storeReg_codec v s hmem hne
    · exact readReg_storeReg_record v s hmem hne
  · exact readReg_storeReg_scfg v s (hlocked ha) hne hs

/-- A store to a register a host may store to writes no error field (10_state.md R20). -/
theorem storeReg_errors (hr : regAccess r = .rw ∨ regAccess r = .locked) :
    (storeReg r v s).accessErr = s.accessErr ∧ (storeReg r v s).schedErr = s.schedErr := by
  obtain ⟨hrw, hlocked⟩ := mem_regNames_of_writable r
  obtain ha | ha := hr
  · obtain hmem | hmem := hrw ha
    · rw [storeReg_eq_setCodec v s hmem]
      exact ⟨rfl, rfl⟩
    · rw [storeReg_eq_setFix_setSns v s hmem]
      exact ⟨rfl, rfl⟩
  · rw [storeReg_eq_setScfg v s (hlocked ha)]
    exact ⟨rfl, rfl⟩

end

/-- A write stores, to an RW register always and to an L register in Init (10_state.md R20, 43_scheduler.md R246). -/
theorem deliver_write_storeReg {s : State} (hr : s.inReset = false) {r : Reg}
    (ha : regAccess r = .rw ∨ regAccess r = .locked ∧ s.sched.state = .init) (v : Word) :
    deliver (.write (regOffset r) 4 v) s = .next (storeReg r v s) := by
  rw [deliver_write hr, memWrite_regOffset]
  obtain ha | ⟨ha, hs⟩ := ha
  · simp only [writeRegister, ha]
  · exact writeRegister_locked_of_init ha hs v

/-- Settles O12: a read appends the value it returns; a write stores, a store reads back under the field's mask, and it leaves every
other register, the error fields, the trace and the interface. -/
theorem readsAndWrites : Obligations.ReadsAndWrites := by
  unfold Obligations.ReadsAndWrites
  refine ⟨fun s r hr => ?_, fun s r v hr ha => ⟨storeReg r v s, deliver_write_storeReg hr ha v, ?_⟩⟩
  · rw [deliver_read hr, memRead_regOffset]
    rfl
  · have hwritable : regAccess r = .rw ∨ regAccess r = .locked := ha.imp_right And.left
    obtain ⟨haccess, hsched⟩ := storeReg_errors v s hwritable
    obtain ⟨hlast, hcode, -, -, -, -, htrace, hpending, hreads, hreset⟩ := storeReg_frame r v s
    refine ⟨readReg_storeReg hwritable v s, readsSameBut_storeReg v s hwritable, hlast, haccess, hsched, hcode, fun hrw => ?_,
      htrace, hpending, hreads, hreset⟩
    rw [cfgErr, cfgErr, storeReg_scfg (by simp [hrw])]

/-! ### STATUS, the codes and SCHED_FLAGS -/

/-- STATUS as the concatenation of its fields, at their widths (10_state.md R24). -/
theorem readReg_status_eq (s : State) : readReg .status s =
    (0#8 ++ statusCode s.schedErrCode ++ 0#5 ++ BitVec.ofBool (cfgErr s) ++ BitVec.ofBool s.schedErr ++
      BitVec.ofBool s.accessErr ++ statusCode s.lastErr : BitVec (8 + 8 + 5 + 1 + 1 + 1 + 8)) := rfl

/-- SCHED_FLAGS as the concatenation of its fields, at their widths (10_state.md R55). -/
theorem readReg_schedFlags_eq (s : State) : readReg .schedFlags s =
    (0#27 ++ BitVec.ofBool s.sched.msgValid ++ BitVec.ofBool s.sched.msgTelem ++ BitVec.ofBool s.sched.toneRun ++
      BitVec.ofBool s.sched.rfOn ++ BitVec.ofBool s.sched.radioCfgd : BitVec (27 + 1 + 1 + 1 + 1 + 1)) := rfl

/-- Settles O14: STATUS is the concatenation of its fields, and the write to it is `writeStatus`. -/
theorem statusRegister : Obligations.StatusRegister := by
  unfold Obligations.StatusRegister
  refine ⟨fun s => ?_, fun s v hr => deliver_write_status hr v⟩
  refine ⟨?_, ?_, ?_, getLsbD_status_cfgErr s, ?_, ?_, ?_⟩
  all_goals
    rw [readReg_status_eq]
    simp (disch := decide) only [BitVec.getLsbD_append, BitVec.extractLsb'_append_eq_of_le, BitVec.extractLsb'_append_eq_of_add_le]
    simp

/-- Settles O16: the codes are the two tables, and SCHED_FLAGS is the concatenation of its flags. -/
theorem codesAndFlags : Obligations.CodesAndFlags := by
  unfold Obligations.CodesAndFlags
  refine ⟨by decide, by decide, fun s => ⟨rfl, ?_, ?_, ?_, ?_, ?_, ?_⟩⟩
  all_goals
    rw [readReg_schedFlags_eq]
    simp (disch := decide) only [BitVec.getLsbD_append, BitVec.extractLsb'_append_eq_of_le]
    simp

/-! ### Buffers -/

/-- A bit of a 162-bit buffer, as the host finds it in the buffer's six words (10_state.md R39, R40). -/
theorem getLsbD_bufWord_ofNat {k : Nat} (hk : k < 162) (x : BitVec 162) :
    (bufWord x (Fin.ofNat 6 (k / 32)).val).getLsbD (k % 32) = x.getLsbD k := by
  have hw : (Fin.ofNat 6 (k / 32)).val = k / 32 := Nat.mod_eq_of_lt (by omega)
  have hbit : 32 * (k / 32) + k % 32 = k := by omega
  have hlt : k % 32 < 32 := Nat.mod_lt _ (by decide)
  rw [hw, getLsbD_bufWord, hbit]
  simp [hlt]

/-- A symbol, as the host finds it in a symbol buffer's eleven words (10_state.md R41, R60). -/
theorem extractLsb'_bufWord_ofNat {k : Nat} (hk : k < 162) (x : BitVec 324) :
    (bufWord x (Fin.ofNat 11 (k / 16)).val).extractLsb' (2 * (k % 16)) 2 = symbolAt x k := by
  have hw : (Fin.ofNat 11 (k / 16)).val = k / 16 := Nat.mod_eq_of_lt (by omega)
  rw [hw, extractLsb'_bufWord]

/-- A buffer's last word holds only the bits that are left for it (10_state.md R39 to R41, R60). -/
theorem toNat_bufWord_lt {n w m : Nat} (x : BitVec n) (h : n ≤ 32 * w + m) : (bufWord x w).toNat < 2 ^ m := by
  have hx : x.toNat < 2 ^ (32 * w) * 2 ^ m := by
    rw [← Nat.pow_add]
    exact x.isLt.trans_le (Nat.pow_le_pow_right Nat.two_pos h)
  rw [bufWord, BitVec.extractLsb'_toNat, Nat.shiftRight_eq_div_pow]
  exact (Nat.mod_le _ _).trans_lt (Nat.div_lt_of_lt_mul hx)

/-- Settles O21: each word of a buffer is its 32-bit slice, and the last slice runs past the buffer's end. -/
theorem bufferLayout : Obligations.BufferLayout := by
  unfold Obligations.BufferLayout
  intro s
  refine ⟨fun k hk => ⟨?_, ?_, ?_, ?_⟩, ?_, ?_, ?_, ?_⟩
  · exact getLsbD_bufWord_ofNat hk s.wenc.fec
  · exact getLsbD_bufWord_ofNat hk s.wenc.ilv
  · exact extractLsb'_bufWord_ofNat hk s.wenc.sym
  · exact extractLsb'_bufWord_ofNat hk s.txbuf
  · exact toNat_bufWord_lt (w := 5) (m := 2) s.wenc.fec (by decide)
  · exact toNat_bufWord_lt (w := 5) (m := 2) s.wenc.ilv (by decide)
  · exact toNat_bufWord_lt (w := 10) (m := 4) s.wenc.sym (by decide)
  · exact toNat_bufWord_lt (w := 10) (m := 4) s.txbuf (by decide)

/-! ### Strings -/

/-- A callsign field is its original string and what follows from the first NUL on (30_encoding.md R94). -/
theorem nulTerminated_append (lo : Word) (hi : BitVec 16) :
    strChars (str6Of lo hi) = nulTerminated lo hi ++ (strChars (str6Of lo hi)).dropWhile (fun b => b != chNul) :=
  List.takeWhile_append_dropWhile.symm

/-- The original string holds no NUL (30_encoding.md R94). -/
theorem ne_nul_of_mem_nulTerminated {lo : Word} {hi : BitVec 16} {b : Byte} (h : b ∈ nulTerminated lo hi) : b ≠ chNul := by
  simpa using List.mem_takeWhile_imp h

/-- What is dropped of a list up to a first NUL starts with it, if there is one (30_encoding.md R94). -/
theorem dropWhile_ne_nul_head? (l : List Byte) :
    l.dropWhile (fun b => b != chNul) = [] ∨ (l.dropWhile (fun b => b != chNul)).head? = some chNul := by
  induction l with
  | nil => exact .inl rfl
  | cons b bs ih =>
    by_cases hb : b = chNul
    · simp [hb]
    · simpa [hb] using ih

/-- Settles O22: strings are built and read lane by lane, and the original string is what stands before the first NUL. -/
theorem stringsInRegisters : Obligations.StringsInRegisters := by
  unfold Obligations.StringsInRegisters
  refine ⟨str6Of_str, fun lo hi i h => ?_, by decide, fun lo hi => ?_⟩
  · interval_cases i <;> rfl
  · exact ⟨_, nulTerminated_append lo hi, fun b hb => ne_nul_of_mem_nulTerminated hb, dropWhile_ne_nul_head? _⟩

end Sys2Proof.Machine
end

section
/-! What a command may change (30_encoding.md R100; 43_scheduler.md R240 to R248, R289): the frame of the SCHED unit and that of the
codec units, the transitions of a tick, and why the two sides do not see each other, with the proofs of O20, O51 and O58. -/

namespace Sys2Proof.Machine

/-! ### The frame of the SCHED unit -/

/-- What a SCHED command leaves: the codec and WENC registers, the configuration, the records, ACCESS_ERR and the interface; and it
only appends events (30_encoding.md R100, 43_scheduler.md R289). -/
structure SchedFrame (s t : State) : Prop where
  codec : t.codec = s.codec
  wenc : t.wenc = s.wenc
  scfg : t.scfg = s.scfg
  fix : t.fix = s.fix
  sns : t.sns = s.sns
  accessErr : t.accessErr = s.accessErr
  interface : interfaceSame s t
  trace : ∃ events, t.trace = s.trace ++ events

section
variable {s t : State}

/-- The registers outside the scheduler's read as before, but STATUS (30_encoding.md R100). -/
theorem SchedFrame.readsSameBut (h : SchedFrame s t) : Machine.readsSameBut schedRegNames s t := by
  intro r hr hs
  cases r <;> first
    | (simp only [readReg, h.codec, h.wenc, h.scfg, h.fix, h.sns]; done)
    | exact absurd rfl hs
    | exact absurd (by simp [schedRegNames]) hr

/-- A tick leaves what a SCHED command leaves. -/
theorem TickEffect.schedFrame (h : TickEffect s t) : SchedFrame s t := by
  cases h with
  | t3 =>
    rw [configureRadioOnce_eq]
    exact ⟨rfl, rfl, rfl, rfl, rfl, rfl, ⟨rfl, rfl, rfl⟩, _, rfl⟩
  | t4 m =>
    rw [commitMessage_eq]
    exact ⟨rfl, rfl, rfl, rfl, rfl, rfl, ⟨rfl, rfl, rfl⟩, _, rfl⟩
  | t7 => exact ⟨rfl, rfl, rfl, rfl, rfl, rfl, ⟨rfl, rfl, rfl⟩, _, rfl⟩
  | _ => exact ⟨rfl, rfl, rfl, rfl, rfl, rfl, ⟨rfl, rfl, rfl⟩, [], (List.append_nil _).symm⟩

/-- What a TONE_TICK can do: one active tick, or LAST_ERR alone (43_scheduler.md R270, R271). -/
theorem toneTick_cases (h : exec .toneTick s = .next t) :
    t = ((succeed s).setSched (keyedRegs s.sched (toneOffset s.sched.txBase (currentSymbol s)))).setTrace
      (s.trace ++ keyedEvents s.sched (toneOffset s.sched.txBase (currentSymbol s))) ∧ toneActive s.sched = true ∨
    t = succeed s ∧ ¬ toneActive s.sched = true := by
  by_cases hactive : toneActive s.sched = true
  · cases (exec_toneTick_of_active hactive).symm.trans h
    exact .inl ⟨rfl, hactive⟩
  · cases (exec_toneTick_of_inactive hactive).symm.trans h
    exact .inr ⟨rfl, hactive⟩

/-- A command of the SCHED unit leaves what a SCHED command leaves. -/
theorem exec_schedFrame {i : Instr} (hi : i ∈ [Instr.schedTick, .toneTick, .ppsEdge, .schedReset]) (h : exec i s = .next t) :
    SchedFrame s t := by
  have hquiet (u : State) : u.trace = u.trace ++ [] := (List.append_nil _).symm
  cases i with
  | schedTick => exact (tickEffect_of_exec h).schedFrame
  | toneTick =>
    obtain ⟨rfl, -⟩ | ⟨rfl, -⟩ := toneTick_cases h
    · exact ⟨rfl, rfl, rfl, rfl, rfl, rfl, ⟨rfl, rfl, rfl⟩, _, rfl⟩
    · exact ⟨rfl, rfl, rfl, rfl, rfl, rfl, ⟨rfl, rfl, rfl⟩, [], hquiet s⟩
  | ppsEdge =>
    cases h
    exact ⟨rfl, rfl, rfl, rfl, rfl, rfl, ⟨rfl, rfl, rfl⟩, [], hquiet s⟩
  | schedReset =>
    cases (exec_schedReset s).symm.trans h
    exact ⟨rfl, rfl, rfl, rfl, rfl, rfl, ⟨rfl, rfl, rfl⟩, _, rfl⟩
  | _ => simp at hi

/-- A TONE_TICK changes TX_CURSOR, TONE_LAST and SCHED_FLAGS alone (43_scheduler.md R270). -/
theorem readsSameBut_toneTick (h : exec .toneTick s = .next t) : readsSameBut (resultRegs .toneTick) s t := by
  intro r hr hs
  obtain ⟨rfl, -⟩ | ⟨rfl, -⟩ := toneTick_cases h
  · cases r
    case txCursor | toneLast | schedFlags => simp [resultRegs] at hr
    case status => exact absurd rfl hs
    all_goals rfl
  · exact readReg_setLastErr hs s none

/-- A PPS_EDGE changes PPS_COUNT alone (43_scheduler.md R283). -/
theorem readsSameBut_ppsEdge (h : exec .ppsEdge s = .next t) : readsSameBut (resultRegs .ppsEdge) s t := by
  intro r hr hs
  cases h
  cases r
  case ppsCount => simp [resultRegs] at hr
  case status => exact absurd rfl hs
  all_goals rfl

/-- Every command of the SCHED unit changes the registers of its row of R100 alone, and STATUS. -/
theorem readsSameBut_schedUnit {i : Instr} (hi : i ∈ [Instr.schedTick, .toneTick, .ppsEdge, .schedReset])
    (h : exec i s = .next t) : readsSameBut (resultRegs i) s t := by
  cases i with
  | schedTick | schedReset => exact (exec_schedFrame hi h).readsSameBut
  | toneTick => exact readsSameBut_toneTick h
  | ppsEdge => exact readsSameBut_ppsEdge h
  | _ => simp at hi

/-- No command but SCHED_TICK writes SCHED_ERR or SCHED_ERR_CODE (60_exceptions.md R315). -/
theorem exec_schedErr {i : Instr} (hi : i ≠ .schedTick) (h : exec i s = .next t) :
    t.schedErr = s.schedErr ∧ t.schedErrCode = s.schedErrCode := by
  cases i with
  | schedTick => exact absurd rfl hi
  | toneTick => obtain ⟨rfl, -⟩ | ⟨rfl, -⟩ := toneTick_cases h <;> exact ⟨rfl, rfl⟩
  | ppsEdge => cases h; exact ⟨rfl, rfl⟩
  | schedReset => cases (exec_schedReset s).symm.trans h; exact ⟨rfl, rfl⟩
  | _ =>
    rw [exec_codecUnit (by decide) h]
    exact ⟨rfl, rfl⟩

/-! ### The frames of the other units -/

/-- A unit's command keeps the frame its result writer keeps (60_exceptions.md R311, R312). -/
theorem complete_map_frame {α : Type} {dests : List Reg} {write : α → State}
    (hwrite : ∀ a, CommandFrame dests s (write a) ∧ (write a).trace = s.trace) (r : Except Err α) :
    CommandFrame dests s (complete s (r.map write)) ∧ (complete s (r.map write)).trace = s.trace := by
  apply complete_frame
  intro u hu
  cases r with
  | ok a => cases hu; exact hwrite a
  | error e => cases hu

/-- WSPR_ENCODE changes the WENC registers alone (41_wspr_encoder.md R162). -/
theorem readsSameBut_setWenc (w : WencRegs) (s : State) : readsSameBut (resultRegs .wsprEncode) s (s.setWenc w) := by
  have hnames : ∀ r ∈ wencRegNames, r ∈ resultRegs .wsprEncode := by decide
  exact fun r hr _ => readReg_setWenc (fun h => hr (hnames r h)) s w

/-- U4B_ENC_ENG changes UGRID, UPOWER and UENG_INT alone (42_u4b_codec.md R207). -/
theorem readsSameBut_writeEngFrame (f : EngFrame) (s : State) :
    readsSameBut [.ugrid, .upower, .uengInt] s (writeEngFrame f s) := by
  intro r hr _
  cases r
  case ugrid | upower | uengInt => simp at hr
  all_goals rfl

/-- Outside the SCHED unit a command keeps the frame of its row of R100 and emits nothing. -/
theorem exec_commandFrame {i : Instr} (hi : i ∉ [Instr.schedTick, .toneTick, .ppsEdge, .schedReset]) (h : exec i s = .next t) :
    CommandFrame (resultRegs i) s t ∧ t.trace = s.trace := by
  cases i with
  | nop =>
    cases h
    exact ⟨⟨fun r _ hs => readReg_setLastErr hs s none, ⟨rfl, rfl, rfl, rfl⟩, ⟨rfl, rfl, rfl⟩⟩, rfl⟩
  | locate => exact exec_locate_frame h
  | wsprEncode =>
    cases h
    exact complete_map_frame (fun w => ⟨⟨readsSameBut_setWenc w s, ⟨rfl, rfl, rfl, rfl⟩, ⟨rfl, rfl, rfl⟩⟩, rfl⟩) _
  | u4bEncCall =>
    cases h
    exact complete_map_frame (fun f => ⟨commandFrame_setCodec (readsSameBut_writeCallFrame f s), rfl⟩) _
  | u4bEncEng =>
    cases h
    exact ⟨commandFrame_succeed_setCodec (readsSameBut_writeEngFrame _ s), rfl⟩
  | u4bDecCall =>
    cases h
    exact complete_map_frame (fun v => ⟨commandFrame_setCodec (readsSameBut_writeCallValues v s), rfl⟩) _
  | u4bDecEng =>
    cases h
    exact complete_map_frame (fun v => ⟨commandFrame_setCodec (readsSameBut_writeEngValues v s), rfl⟩) _
  | schedTick | toneTick | ppsEdge | schedReset => simp at hi

end

/-- Settles O20: inside the SCHED unit by that unit's frame, outside it by the frame of the result writers. -/
theorem commandFrames : Obligations.CommandFrames := by
  unfold Obligations.CommandFrames
  intro i s t h
  have hcfg : cfgErr t = cfgErr s := by rw [cfgErr, cfgErr, exec_scfg h]
  by_cases hi : i ∈ [Instr.schedTick, .toneTick, .ppsEdge, .schedReset]
  · have hframe := exec_schedFrame hi h
    refine ⟨readsSameBut_schedUnit hi h, hframe.interface, hframe.accessErr, hcfg, fun htick => ?_, fun h1 h2 h3 => ?_, hframe.trace⟩
    · obtain ⟨herr, hcode⟩ := exec_schedErr htick h
      exact ⟨hframe.accessErr, herr, hcode, hcfg⟩
    · obtain rfl : i = .ppsEdge := by simpa [h1, h2, h3] using hi
      cases h
      rfl
  · obtain ⟨⟨hregs, hstatus, hinterface⟩, htrace⟩ := exec_commandFrame hi h
    exact ⟨hregs, hinterface, hstatus.1, hcfg, fun _ => hstatus, fun _ _ _ => htrace, [], by rw [htrace, List.append_nil]⟩

/-! ### Transitions -/

/-- The rows of the transition table (43_scheduler.md R241). -/
def transitionTable : List (SchedState × SchedState) :=
  [(.init, .waitForTime), (.waitForTime, .waitForFix), (.waitForFix, .collectTelemetry), (.collectTelemetry, .waitForTransmit),
    (.waitForTransmit, .waitForFix), (.waitForTransmit, .awaitPps), (.awaitPps, .transmitting), (.transmitting, .collectTelemetry)]

section
variable {s t : State}

/-- A tick keeps the state or takes one row of the table (43_scheduler.md R241, R244). -/
theorem TickEffect.transition (h : TickEffect s t) :
    t.sched.state = s.sched.state ∨ (s.sched.state, t.sched.state) ∈ transitionTable := by
  cases h with
  | configInvalid | buildFailed | stay => exact .inl rfl
  | t1 hs => rw [hs]; exact .inr (show (SchedState.init, SchedState.waitForTime) ∈ transitionTable by decide)
  | t2 hs => rw [hs]; exact .inr (show (SchedState.waitForTime, SchedState.waitForFix) ∈ transitionTable by decide)
  | t3 hs => rw [hs]; exact .inr (show (SchedState.waitForFix, SchedState.collectTelemetry) ∈ transitionTable by decide)
  | t4 m hs =>
    rw [hs, commitMessage_eq]
    exact .inr (show (SchedState.collectTelemetry, SchedState.waitForTransmit) ∈ transitionTable by decide)
  | t5 hs => rw [hs]; exact .inr (show (SchedState.waitForTransmit, SchedState.waitForFix) ∈ transitionTable by decide)
  | t6 hs => rw [hs]; exact .inr (show (SchedState.waitForTransmit, SchedState.awaitPps) ∈ transitionTable by decide)
  | t7 hs => rw [hs]; exact .inr (show (SchedState.awaitPps, SchedState.transmitting) ∈ transitionTable by decide)
  | t8 hs => rw [hs]; exact .inr (show (SchedState.transmitting, SchedState.collectTelemetry) ∈ transitionTable by decide)

/-- A tick samples the PPS counter, but for the Init transition, which clears it (43_scheduler.md R248, R249). -/
theorem TickEffect.pps (h : TickEffect s t) :
    s.sched.state = .init ∧ t.sched.state = .waitForTime ∧ t.sched.ppsCount = 0 ∧ t.sched.ppsLast = 0 ∨
      ¬(s.sched.state = .init ∧ t.sched.state = .waitForTime) ∧ t.sched.ppsCount = s.sched.ppsCount ∧
        t.sched.ppsLast = s.sched.ppsCount := by
  cases h with
  | configInvalid hs =>
    refine .inr ⟨fun ⟨_, ht⟩ => ?_, rfl, rfl⟩
    cases hs.symm.trans ht
  | t1 hs => exact .inl ⟨hs, rfl, rfl, rfl⟩
  | t3 hs => rw [configureRadioOnce_eq]; exact .inr ⟨by simp [hs], rfl, rfl⟩
  | t4 m hs => rw [commitMessage_eq]; exact .inr ⟨by simp [hs], rfl, rfl⟩
  | t2 hs | buildFailed _ hs | t5 hs | t6 hs | t7 hs | t8 hs => exact .inr ⟨by simp [hs], rfl, rfl⟩
  | stay hi => exact .inr ⟨fun h => hi h.1, rfl, rfl⟩

/-- No command but SCHED_TICK and SCHED_RESET changes the state (43_scheduler.md R240). -/
theorem exec_state {i : Instr} (h : exec i s = .next t) (htick : i ≠ .schedTick) (hreset : i ≠ .schedReset) :
    t.sched.state = s.sched.state := by
  cases i with
  | schedTick => exact absurd rfl htick
  | schedReset => exact absurd rfl hreset
  | toneTick => obtain ⟨rfl, -⟩ | ⟨rfl, -⟩ := toneTick_cases h <;> rfl
  | ppsEdge => cases h; rfl
  | _ =>
    rw [exec_codecUnit (by decide) h]
    rfl

/-- No row of the table leads to Init (43_scheduler.md R241). -/
theorem ne_init_of_mem_transitionTable : ∀ p ∈ transitionTable, p.2 ≠ .init := by decide

end

/-- Settles O51: one effect of a tick per row of the table, and no row leads to Init. -/
theorem transitions : Obligations.Transitions := by
  unfold Obligations.Transitions
  refine ⟨fun s t h => ⟨(tickEffect_of_exec h).transition, (tickEffect_of_exec h).pps⟩,
    fun i s t h => ⟨exec_state h, fun hreset ht => ?_⟩⟩
  by_cases htick : i = .schedTick
  · subst htick
    obtain hsame | hrow := (tickEffect_of_exec h).transition
    · exact hsame.symm.trans ht
    · exact absurd ht (ne_init_of_mem_transitionTable _ hrow)
  · exact (exec_state h htick hreset).symm.trans ht

end Sys2Proof.Machine
end

section
/-! The scheduler and the codec units do not see each other's registers (43_scheduler.md R252, 41_wspr_encoder.md R162): a command run
after the other side's registers are replaced is the command run before, with the proof of O58. -/

namespace Sys2Proof.Machine

/-! ### The SCHED unit does not see the codec and WENC registers -/

/-- The state with the codec and WENC registers replaced. -/
def withCodec (c : CodecRegs) (w : WencRegs) (s : State) : State := { s with codec := c, wenc := w }

/-- A tick in CollectTelemetry (43_scheduler.md R248, R252). -/
theorem exec_schedTick_collectTelemetry {s : State} (hs : s.sched.state = .collectTelemetry) :
    exec .schedTick s = .next (samplePps s.sched.ppsCount (tickCollectTelemetry (succeed s))) := by
  simp only [exec, execSchedTick, hs]

section
variable (c : CodecRegs) (w : WencRegs) (p : Word) (s : State)

/-- The tick in Init reads the configuration and PPS_COUNT (43_scheduler.md R249). -/
theorem tickInit_withCodec : tickInit p (withCodec c w s) = withCodec c w (tickInit p s) := by
  rw [tickInit, tickInit, apply_ite (withCodec c w)]
  rfl

/-- The tick in WaitForTime reads FIX_TIME and FIX_SATS (43_scheduler.md R250). -/
theorem tickWaitForTime_withCodec : tickWaitForTime p (withCodec c w s) = withCodec c w (tickWaitForTime p s) := by
  rw [tickWaitForTime, tickWaitForTime, apply_ite (withCodec c w)]
  rfl

/-- The tick in WaitForFix reads FIX_LAT, FIX_LON and RADIO_CFGD (43_scheduler.md R251). -/
theorem tickWaitForFix_withCodec : tickWaitForFix (withCodec c w s) = withCodec c w (tickWaitForFix s) := by
  rw [tickWaitForFix, tickWaitForFix, apply_ite (withCodec c w), configureRadioOnce_eq, configureRadioOnce_eq]
  rfl

/-- A message is built from the scheduler's registers alone (43_scheduler.md R252). -/
theorem buildMessage_withCodec : buildMessage (withCodec c w s) = buildMessage s := rfl

/-- The tick in CollectTelemetry commits or records what the build answers (43_scheduler.md R258, R259). -/
theorem tickCollectTelemetry_withCodec : tickCollectTelemetry (withCodec c w s) = withCodec c w (tickCollectTelemetry s) := by
  rw [tickCollectTelemetry, tickCollectTelemetry, buildMessage_withCodec]
  cases buildMessage s with
  | ok m => simp only [commitMessage_eq]; rfl
  | error e => rfl

/-- The tick in WaitForTransmit reads the fix (43_scheduler.md R260, R261). -/
theorem tickWaitForTransmit_withCodec : tickWaitForTransmit (withCodec c w s) = withCodec c w (tickWaitForTransmit s) := by
  rw [tickWaitForTransmit, tickWaitForTransmit, apply_ite (withCodec c w), apply_ite (withCodec c w)]
  rfl

/-- The tick in AwaitPps reads the PPS registers and arms from the configuration (43_scheduler.md R263 to R266). -/
theorem tickAwaitPps_withCodec : tickAwaitPps p (withCodec c w s) = withCodec c w (tickAwaitPps p s) := by
  rw [tickAwaitPps, tickAwaitPps, apply_ite (withCodec c w)]
  rfl

/-- The tick in Transmitting reads TX_CURSOR (43_scheduler.md R267). -/
theorem tickTransmitting_withCodec : tickTransmitting (withCodec c w s) = withCodec c w (tickTransmitting s) := by
  rw [tickTransmitting, tickTransmitting, apply_ite (withCodec c w)]
  rfl

end

section
variable {s t : State} (c : CodecRegs) (w : WencRegs)

/-- The end of a tick is the same before and after the replacement. -/
theorem samplePps_withCodec {u v : State} (h : u = withCodec c w v) (p : Word) :
    Host.Outcome.next (φ := Fault) (ρ := Refusal) (samplePps p u) = .next (withCodec c w (samplePps p v)) := by
  rw [h]
  rfl

/-- A SCHED_TICK does not see the codec and WENC registers (43_scheduler.md R252). -/
theorem exec_schedTick_withCodec (h : exec .schedTick s = .next t) :
    exec .schedTick (withCodec c w s) = .next (withCodec c w t) := by
  cases hs : s.sched.state with
  | init =>
    cases (exec_schedTick_init hs).symm.trans h
    exact (exec_schedTick_init (s := withCodec c w s) hs).trans (congrArg _ (tickInit_withCodec c w _ (succeed s)))
  | waitForTime =>
    cases (exec_schedTick_waitForTime hs).symm.trans h
    exact (exec_schedTick_waitForTime (s := withCodec c w s) hs).trans
      (samplePps_withCodec c w (tickWaitForTime_withCodec c w _ (succeed s)) _)
  | waitForFix =>
    cases (exec_schedTick_waitForFix hs).symm.trans h
    exact (exec_schedTick_waitForFix (s := withCodec c w s) hs).trans
      (samplePps_withCodec c w (tickWaitForFix_withCodec c w (succeed s)) _)
  | collectTelemetry =>
    cases (exec_schedTick_collectTelemetry hs).symm.trans h
    exact (exec_schedTick_collectTelemetry (s := withCodec c w s) hs).trans
      (samplePps_withCodec c w (tickCollectTelemetry_withCodec c w (succeed s)) _)
  | waitForTransmit =>
    cases (exec_schedTick_waitForTransmit hs).symm.trans h
    exact (exec_schedTick_waitForTransmit (s := withCodec c w s) hs).trans
      (samplePps_withCodec c w (tickWaitForTransmit_withCodec c w (succeed s)) _)
  | awaitPps =>
    cases (exec_schedTick_awaitPps hs).symm.trans h
    exact (exec_schedTick_awaitPps (s := withCodec c w s) hs).trans
      (samplePps_withCodec c w (tickAwaitPps_withCodec c w _ (succeed s)) _)
  | transmitting =>
    cases (exec_schedTick_transmitting hs).symm.trans h
    exact (exec_schedTick_transmitting (s := withCodec c w s) hs).trans
      (samplePps_withCodec c w (tickTransmitting_withCodec c w (succeed s)) _)

/-- A TONE_TICK does not see the codec and WENC registers (43_scheduler.md R270). -/
theorem exec_toneTick_withCodec (h : exec .toneTick s = .next t) :
    exec .toneTick (withCodec c w s) = .next (withCodec c w t) := by
  obtain ⟨rfl, hactive⟩ | ⟨rfl, hinactive⟩ := toneTick_cases h
  · exact exec_toneTick_of_active (s := withCodec c w s) hactive
  · exact exec_toneTick_of_inactive (s := withCodec c w s) hinactive

/-- No command of the SCHED unit sees the codec and WENC registers, and each leaves them (43_scheduler.md R252). -/
theorem exec_withCodec {i : Instr} (hi : i ∈ [Instr.schedTick, .toneTick, .ppsEdge, .schedReset]) (h : exec i s = .next t) :
    exec i (withCodec c w s) = .next (withCodec c w t) := by
  cases i with
  | schedTick => exact exec_schedTick_withCodec c w h
  | toneTick => exact exec_toneTick_withCodec c w h
  | ppsEdge => cases h; rfl
  | schedReset =>
    cases (exec_schedReset s).symm.trans h
    exact exec_schedReset (withCodec c w s)
  | _ => simp at hi

end

/-! ### The codec units do not see the scheduler's registers -/

/-- The state with the scheduler's side replaced: configuration, records, scheduler status, snapshot and TXBUF. -/
def withSched (g : ScfgRegs) (f : FixRegs) (n : SnsRegs) (c : SchedRegs) (p : Snapshot) (x : BitVec 324) (s : State) : State :=
  { s with scfg := g, fix := f, sns := n, sched := c, snap := p, txbuf := x }

section
variable (g : ScfgRegs) (f : FixRegs) (n : SnsRegs) (c : SchedRegs) (p : Snapshot) (x : BitVec 324)

/-- A unit's command does not see the scheduler's side if its operands and its result writer do not. -/
theorem complete_map_withSched {α : Type} (write : α → State → State)
    (hwrite : ∀ a s, write a (withSched g f n c p x s) = withSched g f n c p x (write a s)) (r : Except Err α) (s : State) :
    complete (withSched g f n c p x s) (r.map fun a => write a (withSched g f n c p x s)) =
      withSched g f n c p x (complete s (r.map fun a => write a s)) := by
  cases r with
  | ok a => exact congrArg succeed (hwrite a s)
  | error e => rfl

/-- No codec command sees the scheduler's side, and each leaves it (30_encoding.md R100, 41_wspr_encoder.md R162). -/
theorem exec_withSched {i : Instr} {s t : State}
    (hi : i ∈ [Instr.locate, .wsprEncode, .u4bEncCall, .u4bEncEng, .u4bDecCall, .u4bDecEng]) (h : exec i s = .next t) :
    exec i (withSched g f n c p x s) = .next (withSched g f n c p x t) := by
  cases i with
  | locate => cases h; exact congrArg _ (complete_map_withSched g f n c p x writeLocator (fun _ _ => rfl) _ s)
  | wsprEncode =>
    cases h
    exact congrArg _ (complete_map_withSched g f n c p x (fun w u => u.setWenc w) (fun _ _ => rfl) _ s)
  | u4bEncCall => cases h; exact congrArg _ (complete_map_withSched g f n c p x writeCallFrame (fun _ _ => rfl) _ s)
  | u4bDecCall => cases h; exact congrArg _ (complete_map_withSched g f n c p x writeCallValues (fun _ _ => rfl) _ s)
  | u4bDecEng => cases h; exact congrArg _ (complete_map_withSched g f n c p x writeEngValues (fun _ _ => rfl) _ s)
  | u4bEncEng => cases h; rfl
  | _ => simp at hi

end

/-- Settles O58: replacing the other side's registers commutes with every command. -/
theorem unitsAreIsolated : Obligations.UnitsAreIsolated := by
  unfold Obligations.UnitsAreIsolated
  exact ⟨fun i s t c w hi h => exec_withCodec c w hi h, fun i s t g f n c p x hi h => exec_withSched g f n c p x hi h⟩

end Sys2Proof.Machine
end

section
/-! The message in flight cannot be changed (43_scheduler.md R252, R265; 70_reset_and_hazards.md R350): what commands, writes and the
other inputs leave of TXBUF and the message registers while a message is pending or in flight, with the proof of O57. -/

namespace Sys2Proof.Machine

/-- TXBUF and the message registers are as before, and in Transmitting the latched base and correction too (43_scheduler.md R265). -/
structure MessageKept (s t : State) : Prop where
  txbuf : t.txbuf = s.txbuf
  callLo : t.sched.msgCallLo = s.sched.msgCallLo
  callHi : t.sched.msgCallHi = s.sched.msgCallHi
  grid : t.sched.msgGrid = s.sched.msgGrid
  power : t.sched.msgPower = s.sched.msgPower
  telem : t.sched.msgTelem = s.sched.msgTelem
  latched : s.sched.state = .transmitting → t.sched.txBase = s.sched.txBase ∧ t.sched.txCorr = s.sched.txCorr

section
variable {s t : State}

/-- What leaves the scheduler status and TXBUF leaves the message. -/
theorem messageKept_of_sched_eq (hsched : t.sched = s.sched) (htxbuf : t.txbuf = s.txbuf) : MessageKept s t := by
  constructor
  case txbuf => exact htxbuf
  all_goals simp only [hsched, and_self, implies_true]

/-- While a message is pending or in flight a tick commits none, and it arms only before Transmitting (43_scheduler.md R241). -/
theorem TickEffect.messageKept (h : TickEffect s t) (hs : messageState s.sched.state = true) : MessageKept s t := by
  cases h with
  | t4 m hstate => rw [hstate] at hs; cases hs
  | t3 hstate => rw [hstate] at hs; cases hs
  | t7 hstate => exact ⟨rfl, rfl, rfl, rfl, rfl, rfl, fun htransmit => nomatch hstate.symm.trans htransmit⟩
  | _ => exact ⟨rfl, rfl, rfl, rfl, rfl, rfl, fun _ => ⟨rfl, rfl⟩⟩

/-- No command but SCHED_RESET changes a pending or in-flight message (43_scheduler.md R252, R287). -/
theorem exec_messageKept {i : Instr} (hs : messageState s.sched.state = true) (hi : i ≠ .schedReset) (h : exec i s = .next t) :
    MessageKept s t := by
  cases i with
  | schedTick => exact (tickEffect_of_exec h).messageKept hs
  | toneTick => obtain ⟨rfl, -⟩ | ⟨rfl, -⟩ := toneTick_cases h <;> exact ⟨rfl, rfl, rfl, rfl, rfl, rfl, fun _ => ⟨rfl, rfl⟩⟩
  | ppsEdge => cases h; exact ⟨rfl, rfl, rfl, rfl, rfl, rfl, fun _ => ⟨rfl, rfl⟩⟩
  | schedReset => exact absurd rfl hi
  | _ =>
    rw [exec_codecUnit (by decide) h]
    exact messageKept_of_sched_eq rfl rfl

/-- A word at CMD other than SCHED_RESET's leaves the message (30_encoding.md R91, R92). -/
theorem runCommandWord_messageKept {w : Word} (hs : messageState s.sched.state = true) (hw : w ≠ encode .schedReset)
    (h : runCommandWord w s = .next t) : MessageKept s t := by
  unfold runCommandWord at h
  split at h
  next i hd =>
    refine exec_messageKept hs ?_ h
    rintro rfl
    exact hw ((decode_eq_ok_iff w _).mp hd)
  next => cases h; exact messageKept_of_sched_eq rfl rfl

/-- A store leaves the message: TXBUF and the message registers are RO (10_state.md R57, R60). -/
theorem messageKept_storeReg (r : Reg) (v : Word) (s : State) : MessageKept s (storeReg r v s) := by
  obtain ⟨-, -, -, hsched, -, htxbuf, -⟩ := storeReg_frame r v s
  exact messageKept_of_sched_eq hsched htxbuf

/-- A write to a register leaves the message, unless it issues SCHED_RESET. -/
theorem writeRegister_messageKept {r : Reg} {v : Word} (hs : messageState s.sched.state = true)
    (hv : r = .cmd → v ≠ encode .schedReset) (h : writeRegister r v s = .next t) : MessageKept s t := by
  cases ha : regAccess r with
  | wo =>
    simp only [writeRegister, ha] at h
    exact runCommandWord_messageKept hs (hv (eq_cmd_of_regAccess_wo ha)) h
  | ro => rw [writeRegister_ro ha] at h; cases h; exact messageKept_of_sched_eq rfl rfl
  | rw | w1c => simp only [writeRegister, ha] at h; cases h; exact messageKept_storeReg r v s
  | locked =>
    by_cases hinit : s.sched.state = .init
    · rw [writeRegister_locked_of_init ha hinit] at h; cases h; exact messageKept_storeReg r v s
    · rw [writeRegister_locked_of_ne_init ha hinit] at h; cases h; exact messageKept_of_sched_eq rfl rfl

/-- A host write leaves the message, unless it issues SCHED_RESET (20_memory.md R71 to R74). -/
theorem memWrite_messageKept {off : Offset} {width : Nat} {v : Word} (hs : messageState s.sched.state = true)
    (hv : Input.write off width v ≠ commandInput (encode .schedReset)) (h : memWrite off width v s = .next t) :
    MessageKept s t := by
  unfold memWrite at h
  split at h
  next haligned =>
    obtain ⟨-, rfl⟩ := (accessAligned_iff off width).mp haligned
    split at h
    next r hr =>
      refine writeRegister_messageKept hs ?_ h
      rintro rfl rfl
      rw [← regOffset_of_regAt hr] at hv
      exact hv rfl
    next => cases h; exact messageKept_of_sched_eq rfl rfl
  next => cases h; exact messageKept_of_sched_eq rfl rfl

/-- A read leaves the scheduler status and TXBUF (20_memory.md R71, R79). -/
theorem messageKept_memRead (off : Offset) (width : Nat) (s : State) : MessageKept s (memRead off width s) := by
  unfold memRead
  split
  · split <;> exact messageKept_of_sched_eq rfl rfl
  · exact messageKept_of_sched_eq rfl rfl

/-- An input other than SCHED_RESET and the reset pin leaves the message (20_memory.md R83, 70_reset_and_hazards.md R350). -/
theorem acceptInput_messageKept {i : Input} (hs : messageState s.sched.state = true)
    (hi : i ≠ commandInput (encode .schedReset)) (hrst : ∀ b, i ≠ .rst b) (h : acceptInput i s = .next t) : MessageKept s t := by
  cases i with
  | read off width => cases h; exact messageKept_memRead off width s
  | write => exact memWrite_messageKept hs hi h
  | ppsIn => exact exec_messageKept (i := .ppsEdge) hs (by decide) h
  | toneTickIn => exact exec_messageKept (i := .toneTick) hs (by decide) h
  | rst b => exact absurd rfl (hrst b)

end

/-- Settles O57: a store reaches no scheduler register, and of the commands only SCHED_RESET and a tick that commits write the message;
a tick commits in CollectTelemetry alone and arms in AwaitPps alone. -/
theorem messageIsFrozen : Obligations.MessageIsFrozen := by
  unfold Obligations.MessageIsFrozen
  intro s t hs hrst hreset ht
  obtain ⟨u, hu, he⟩ := step_effect s
  cases hu.symm.trans ht
  obtain ⟨h1, h2, h3, h4, h5, h6, h7⟩ : MessageKept s t := by
    cases he with
    | idle | held => exact messageKept_of_sched_eq rfl rfl
    | release rest hp => exact absurd hp (hrst _ _)
    | input i rest hp _ ha =>
      have hcommand : i ≠ commandInput (encode .schedReset) := by rintro rfl; exact hreset rest hp
      have hpin : ∀ b, i ≠ .rst b := by rintro b rfl; exact hrst b rest hp
      have hkept := acceptInput_messageKept (s := s.setPending rest) hs hcommand hpin ha
      exact ⟨hkept.txbuf, hkept.callLo, hkept.callHi, hkept.grid, hkept.power, hkept.telem, hkept.latched⟩
  exact ⟨h1, h2, h3, h4, h5, h6, h7⟩

end Sys2Proof.Machine
end

section
/-! Sequences of edges and ticks (30_encoding.md R104; 43_scheduler.md R270 to R278, R291; 70_reset_and_hazards.md R347): PPS edges and
tone ticks commute, the race of a tick with the last tone tick, and a whole message, with the proofs of O54, O55, O59 and O60. -/

namespace Sys2Proof.Machine

/-! ### Sequences of commands -/

/-- A sequence whose first command answers `t` goes on from `t`. -/
theorem execAll_cons_of_next {i : Instr} {s t : State} (h : exec i s = .next t) (is : List Instr) :
    execAll (i :: is) s = execAll is t := by
  simp only [execAll, h]

/-- A sequence of one command is the command. -/
theorem execAll_singleton (i : Instr) (s : State) : execAll [i] s = exec i s := by
  obtain ⟨t, ht⟩ := exec_next i s
  rw [execAll_cons_of_next ht, ht]
  rfl

/-- A sequence whose first part answers `t` goes on from `t`. -/
theorem execAll_append_of_next {is : List Instr} {s t : State} (h : execAll is s = .next t) (js : List Instr) :
    execAll (is ++ js) s = execAll js t := by
  induction is generalizing s with
  | nil => cases h; rfl
  | cons i is ih =>
    obtain ⟨u, hu⟩ := exec_next i s
    rw [execAll_cons_of_next hu] at h
    rw [List.cons_append, execAll_cons_of_next hu, ih h]

/-! ### PPS edges and tone ticks commute -/

/-- The state after a PPS edge (43_scheduler.md R283). -/
def afterEdge (s : State) : State := succeed (s.setSched { s.sched with ppsCount := s.sched.ppsCount + 1 })

/-- The state after a tone tick (43_scheduler.md R270, R271). -/
def afterTone (s : State) : State := if toneActive s.sched then keySymbol (succeed s) else succeed s

/-- A PPS edge answers `afterEdge`. -/
theorem exec_ppsEdge (s : State) : exec .ppsEdge s = .next (afterEdge s) := rfl

/-- A tone tick answers `afterTone`. -/
theorem exec_toneTick (s : State) : exec .toneTick s = .next (afterTone s) := rfl

/-- A change of PPS_COUNT and PPS_LAST, which no tone tick reads or writes (43_scheduler.md R270, R283). -/
def withPps (count last : Word) (s : State) : State := s.setSched { s.sched with ppsCount := count, ppsLast := last }

/-- A tone tick commutes with a change of the PPS registers. -/
theorem afterTone_withPps (count last : Word) (s : State) :
    afterTone (withPps count last s) = withPps count last (afterTone s) := by
  have hactive : toneActive (withPps count last s).sched = toneActive s.sched := rfl
  rw [afterTone, afterTone, hactive, apply_ite (withPps count last), keySymbol_eq, keySymbol_eq]
  rfl

/-- A tone tick leaves the PPS registers. -/
theorem afterTone_pps (s : State) :
    (afterTone s).sched.ppsCount = s.sched.ppsCount ∧ (afterTone s).sched.ppsLast = s.sched.ppsLast := by
  obtain ⟨ht, -⟩ | ⟨ht, -⟩ := toneTick_cases (exec_toneTick s) <;> rw [ht] <;> exact ⟨rfl, rfl⟩

/-- A tone tick ends by clearing LAST_ERR, whatever it held (60_exceptions.md R311). -/
theorem succeed_afterTone (s : State) : succeed (afterTone s) = afterTone s := by
  obtain ⟨ht, -⟩ | ⟨ht, -⟩ := toneTick_cases (exec_toneTick s) <;> rw [ht] <;> rfl

/-- An edge and a tone tick commute (60_exceptions.md R317). -/
theorem afterTone_afterEdge (s : State) : afterTone (afterEdge s) = afterEdge (afterTone s) := by
  obtain ⟨hcount, hlast⟩ := afterTone_pps s
  calc afterTone (afterEdge s)
      = afterTone (withPps (s.sched.ppsCount + 1) s.sched.ppsLast s) := rfl
    _ = withPps (s.sched.ppsCount + 1) s.sched.ppsLast (afterTone s) := afterTone_withPps _ _ s
    _ = withPps ((afterTone s).sched.ppsCount + 1) (afterTone s).sched.ppsLast (succeed (afterTone s)) := by
      rw [hcount, hlast, succeed_afterTone]
    _ = afterEdge (afterTone s) := rfl

/-- A tone tick may take effect before or after any number of edges (60_exceptions.md R317). -/
theorem execAll_edges_toneTick {edges : List Instr} (hedges : ∀ i ∈ edges, i = .ppsEdge) (is : List Instr) (s : State) :
    execAll (edges ++ .toneTick :: is) s = execAll (edges ++ is) (afterTone s) := by
  induction edges generalizing s with
  | nil => exact execAll_cons_of_next (exec_toneTick s) is
  | cons i edges ih =>
    obtain ⟨rfl, hrest⟩ := List.forall_mem_cons.mp hedges
    rw [List.cons_append, List.cons_append, execAll_cons_of_next (exec_ppsEdge s), execAll_cons_of_next (exec_ppsEdge _),
      ih hrest, afterTone_afterEdge]

/-- Any interleaving of edges and tone ticks ends as all the edges followed by all the tone ticks. -/
theorem execAll_interleaving {edges tones order : List Instr} (h : Interleaving edges tones order)
    (hedges : ∀ i ∈ edges, i = .ppsEdge) (htones : ∀ i ∈ tones, i = .toneTick) (s : State) :
    execAll order s = execAll (edges ++ tones) s := by
  induction h generalizing s with
  | nil => rfl
  | left i h ih =>
    obtain ⟨rfl, hrest⟩ := List.forall_mem_cons.mp hedges
    rw [List.cons_append, execAll_cons_of_next (exec_ppsEdge s), execAll_cons_of_next (exec_ppsEdge s), ih hrest htones]
  | right i h ih =>
    obtain ⟨rfl, hrest⟩ := List.forall_mem_cons.mp htones
    rw [execAll_cons_of_next (exec_toneTick s), execAll_edges_toneTick hedges, ih hedges hrest]

/-- Settles O60, by induction on the interleaving: each tone tick moves behind the edges that are still to come. -/
theorem edgeOrderDoesNotMatter : Obligations.EdgeOrderDoesNotMatter := by
  unfold Obligations.EdgeOrderDoesNotMatter
  intro m n order s h
  exact execAll_interleaving h (fun _ hi => List.eq_of_mem_replicate hi) (fun _ hi => List.eq_of_mem_replicate hi) s

/-! ### The race of a tick with the last tone tick -/

section
variable {s : State}

/-- A tick in Transmitting with symbols left only samples the PPS counter (43_scheduler.md R267). -/
theorem exec_schedTick_of_symbolsLeft (hs : s.sched.state = .transmitting) (hlt : s.sched.cursor.toNat < 162) :
    exec .schedTick s = .next (samplePps s.sched.ppsCount (succeed s)) := by
  have hcursor : (succeed s).sched.cursor ≠ 162#8 := by
    intro (h : s.sched.cursor = 162#8)
    rw [h] at hlt
    exact absurd hlt (by decide)
  rw [exec_schedTick_transmitting hs, tickTransmitting, if_neg hcursor]

/-- A tick in Transmitting with all symbols keyed moves to CollectTelemetry (43_scheduler.md R267). -/
theorem exec_schedTick_of_allKeyed (hs : s.sched.state = .transmitting) (hcursor : s.sched.cursor = 162) :
    exec .schedTick s = .next (samplePps s.sched.ppsCount
      ((succeed s).setSched { s.sched with state := .collectTelemetry, msgValid := false })) := by
  have hdone : (succeed s).sched.cursor = 162#8 := hcursor
  rw [exec_schedTick_transmitting hs, tickTransmitting, if_pos hdone]
  rfl

/-- A tick in Transmitting does not depend on PPS_LAST, which it overwrites (43_scheduler.md R248, R267). -/
theorem exec_schedTick_samplePps (hs : s.sched.state = .transmitting) (p : Word) :
    exec .schedTick (samplePps p s) = exec .schedTick s := by
  have hcommute : tickTransmitting (succeed (samplePps p s)) = samplePps p (tickTransmitting (succeed s)) := by
    rw [tickTransmitting, tickTransmitting, apply_ite (samplePps p)]
    rfl
  rw [exec_schedTick_transmitting (s := samplePps p s) hs, exec_schedTick_transmitting hs, hcommute]
  rfl

/-- A tone tick keeps the state (43_scheduler.md R240). -/
theorem afterTone_state (s : State) : (afterTone s).sched.state = s.sched.state :=
  exec_state (exec_toneTick s) (by decide) (by decide)

/-- The tone tick on the last symbol leaves the cursor at 162 (43_scheduler.md R277). -/
theorem afterTone_cursor (h : toneActive s.sched = true) : (afterTone s).sched.cursor = s.sched.cursor + 1 := by
  rw [afterTone, if_pos h, keySymbol_eq]
  rfl

end

/-- Settles O59: a tick with symbols left writes PPS_LAST alone, which neither the tone tick reads nor the following tick, and that tick
overwrites it. -/
theorem tickToneRace : Obligations.TickToneRace := by
  unfold Obligations.TickToneRace
  intro s hs hlt
  have htick := exec_schedTick_of_symbolsLeft hs hlt
  have hstate : (afterTone s).sched.state = .transmitting := (afterTone_state s).trans hs
  refine ⟨?_, fun hcursor hrun => ⟨⟨_, (execAll_singleton _ s).trans htick, hs⟩, ?_⟩⟩
  · have hsampled : afterTone (samplePps s.sched.ppsCount (succeed s)) = samplePps s.sched.ppsCount (afterTone s) := by
      obtain ⟨hcount, -⟩ := afterTone_pps s
      refine (afterTone_withPps s.sched.ppsCount s.sched.ppsCount s).trans ?_
      rw [withPps, samplePps, hcount.symm]
    rw [execAll_cons_of_next htick, execAll_cons_of_next (exec_toneTick _), execAll_cons_of_next (exec_toneTick s),
      execAll_singleton, execAll_singleton, hsampled, exec_schedTick_samplePps hstate]
  · have hkeyed : (afterTone s).sched.cursor = 162 := by
      rw [afterTone_cursor ((toneActive_iff _).mpr ⟨hs, hrun, hlt⟩), hcursor]
      rfl
    rw [execAll_cons_of_next (exec_toneTick s), execAll_singleton, exec_schedTick_of_allKeyed hstate hkeyed]
    exact ⟨_, rfl, rfl⟩

/-! ### The tone offset does not wrap -/

/-- A base that leaves room for three tone steps gives an exact sum (43_scheduler.md R276). -/
theorem toNat_toneOffset {base : Word} (h : base.toNat ≤ Config.offsetMax) (sym : BitVec 2) :
    (toneOffset base sym).toNat = base.toNat + sym.toNat * 1465 := by
  have hsym := sym.isLt
  have hmax : Config.offsetMax = 0xFFFFEED4 := rfl
  rw [← ofNat_toneOffset, BitVec.toNat_ofNat, Nat.mod_eq_of_lt (by omega)]

/-- Settles O54: with the tone clock running the invariant puts the machine in Transmitting with a symbol left and a base that leaves
room for the largest symbol. -/
theorem toneOffsetsNeverWrap : Obligations.ToneOffsetsNeverWrap := by
  unfold Obligations.ToneOffsetsNeverWrap
  intro s t hinv hrun ht
  obtain ⟨hs, hlt⟩ : s.sched.state = .transmitting ∧ s.sched.cursor.toNat < 162 := by
    simpa using hinv.toneRun_iff.symm.trans hrun
  cases (exec_toneTick_of_active ((toneActive_iff _).mpr ⟨hs, hrun, hlt⟩)).symm.trans ht
  exact ⟨toNat_toneOffset (hinv.txBase_le hs) _, toNat_cursor_succ hlt⟩

end Sys2Proof.Machine
end

section
/-! A whole message (43_scheduler.md R270 to R278, R291): the state after each of its 162 tone ticks, by induction on their number, with
the proof of O55. -/

namespace Sys2Proof.Machine

/-- The offset of symbol k of the message in flight (43_scheduler.md R274). -/
def messageOffset (s : State) (k : Nat) : Word := toneOffset s.sched.txBase (symbolAt s.txbuf k)

/-- The SET_TONE event of symbol k (43_scheduler.md R274). -/
def toneEvent (s : State) (k : Nat) : Event := .setTone (messageOffset s k) s.sched.txCorr

/-- The events of the tone tick on symbol k of a message (43_scheduler.md R272, R274, R278). -/
def toneEvents (s : State) (k : Nat) : List Event :=
  (if k = 0 then [Event.rfEnable true] else []) ++ [toneEvent s k] ++
    (if k = 161 then [Event.rfEnable false, Event.toneClock false] else [])

/-- The events of the first k tone ticks of a message (43_scheduler.md R272, R274, R278). -/
def messageEvents (s : State) (k : Nat) : List Event :=
  (if k = 0 then [] else [Event.rfEnable true]) ++ (List.range k).map (toneEvent s) ++
    (if k = 162 then [Event.rfEnable false, Event.toneClock false] else [])

/-- The state after the first k tone ticks of the message that is armed in `s` (43_scheduler.md R270 to R278). -/
def afterTones (s : State) (k : Nat) : State :=
  { s with
    lastErr := none
    sched := { s.sched with
      cursor := BitVec.ofNat 8 k
      toneLast := if k = 0 then s.sched.toneLast else messageOffset s (k - 1)
      rfOn := if k = 0 then s.sched.rfOn else decide (k < 162)
      toneRun := decide (k < 162) }
    trace := s.trace ++ messageEvents s k }

/-- The events of one more tone tick (43_scheduler.md R272, R274, R278). -/
theorem messageEvents_succ (s : State) {k : Nat} (hk : k < 162) :
    messageEvents s (k + 1) = messageEvents s k ++ toneEvents s k := by
  have hlast : k + 1 = 162 ↔ k = 161 := by omega
  have hnot : k ≠ 162 := by omega
  by_cases h0 : k = 0
  · subst h0
    simp [messageEvents, toneEvents]
  · simp only [messageEvents, toneEvents, List.range_succ, List.map_append, h0, hnot, hlast, if_false, Nat.succ_ne_zero]
    simp

/-- One more tone tick keys symbol k (43_scheduler.md R270). -/
theorem exec_toneTick_afterTones {s : State} (hs : s.sched.state = .transmitting) {k : Nat} (hk : k < 162) :
    exec .toneTick (afterTones s k) = .next (afterTones s (k + 1)) := by
  have hcursor : (afterTones s k).sched.cursor.toNat = k := Nat.mod_eq_of_lt (by omega)
  have hrun : (afterTones s k).sched.toneRun = true := decide_eq_true hk
  have hoff : toneOffset (afterTones s k).sched.txBase (currentSymbol (afterTones s k)) = messageOffset s k := by
    rw [currentSymbol, hcursor]
    rfl
  have hactive : toneActive (afterTones s k).sched = true := (toneActive_iff _).mpr ⟨hs, hrun, by rw [hcursor]; exact hk⟩
  have hmore : decide (k + 1 < 162) = if k = 161 then false else true := by
    by_cases h : k = 161
    · simp [h]
    · simp [h, show k + 1 < 162 by omega]
  have hrf : (if k = 161 then false else if k = 0 then true else (afterTones s k).sched.rfOn) = decide (k + 1 < 162) := by
    rw [hmore]
    split_ifs with hlast h0
    · rfl
    · rfl
    · simp [afterTones, h0, hk]
  have hnext : afterTones s (k + 1) = ((succeed (afterTones s k)).setSched { (afterTones s k).sched with
      cursor := BitVec.ofNat 8 (k + 1), toneLast := messageOffset s k, rfOn := decide (k + 1 < 162)
      toneRun := decide (k + 1 < 162) }).setTrace (s.trace ++ messageEvents s (k + 1)) := rfl
  have htrace : s.trace ++ messageEvents s (k + 1) = (afterTones s k).trace ++ toneEvents s k := by
    rw [messageEvents_succ s hk]
    exact (List.append_assoc _ _ _).symm
  rw [exec_toneTick_of_active hactive, hoff, keyedRegs_eq_of_toneRun _ hrun, keyedEvents_eq, hcursor, hrf, ← hmore, hnext, htrace]
  rfl

/-- The first n tone ticks of an armed message (43_scheduler.md R270 to R278). -/
theorem execAll_toneTicks {s : State} (hs : s.sched.state = .transmitting) (hrun : s.sched.toneRun = true)
    (hcursor : s.sched.cursor = 0) {n : Nat} (hn : n ≤ 162) :
    execAll (List.replicate n .toneTick) (succeed s) = .next (afterTones s n) := by
  induction n with
  | zero =>
    have hstart : afterTones s 0 = { s with
      lastErr := none, sched := { s.sched with cursor := 0, toneRun := true }, trace := s.trace ++ [] } := rfl
    rw [hstart, ← hcursor, ← hrun, List.append_nil]
    rfl
  | succ n ih =>
    rw [List.replicate_succ', execAll_append_of_next (ih (by omega)), execAll_singleton]
    exact exec_toneTick_afterTones hs (by omega)

/-- All 162 tone ticks of an armed message, whatever LAST_ERR held before (43_scheduler.md R270 to R278). -/
theorem execAll_wholeMessage {s : State} (hs : s.sched.state = .transmitting) (hrun : s.sched.toneRun = true)
    (hcursor : s.sched.cursor = 0) : execAll (List.replicate 162 .toneTick) s = .next (afterTones s 162) := by
  have hfirst : exec .toneTick s = exec .toneTick (succeed s) := (exec_setLastErr .toneTick s none).symm
  have hall := execAll_toneTicks hs hrun hcursor (le_refl 162)
  rw [List.replicate_succ, execAll] at hall ⊢
  rwa [hfirst]

/-- The offset of a symbol as the sum of its numbers (43_scheduler.md R274). -/
theorem messageOffset_eq (s : State) (k : Nat) :
    messageOffset s k = s.sched.txBase + BitVec.ofNat 32 ((symbolAt s.txbuf k).toNat * 1465) := by
  rw [messageOffset, ← ofNat_toneOffset, BitVec.ofNat_add, BitVec.ofNat_toNat, BitVec.setWidth_eq]

/-- Settles O55: the 162 tone ticks by induction, then the tick that finds the cursor at 162. -/
theorem wholeMessage : Obligations.WholeMessage := by
  unfold Obligations.WholeMessage
  intro s hs hrun hcursor off done
  have hoff : messageOffset s = off := funext (messageOffset_eq s)
  have hevent : toneEvent s = fun k => .setTone (off k) s.sched.txCorr := funext fun k => by rw [toneEvent, hoff]
  have hdone : afterTones s 162 = done := by
    have hevents : s.trace ++ messageEvents s 162 = done.trace := by
      simp only [messageEvents, hevent, ← List.append_assoc]
      rfl
    have hlast : messageOffset s 161 = off 161 := congrFun hoff 161
    have hunfold : afterTones s 162 = { done with
      trace := s.trace ++ messageEvents s 162, sched := { done.sched with toneLast := messageOffset s 161 } } := rfl
    rw [hunfold, hevents, hlast]
  have hall := execAll_wholeMessage hs hrun hcursor
  rw [hdone] at hall
  refine ⟨hall, ?_⟩
  rw [execAll_append_of_next hall, execAll_singleton]
  exact exec_schedTick_of_allKeyed hs rfl

end Sys2Proof.Machine
end

section
/-! LOCATE and WSPR_ENCODE: the locator's pattern and what it depends on (40_locator.md R127), and the checks and ends of WSPR_ENCODE
(41_wspr_encoder.md R140 to R148), with the proofs of O24 and O26. -/

namespace Sys2Proof.Machine

/-! ### LOCATE -/

/-- A LOCATE without error had a position in range and wrote its locator (40_locator.md R120, R121). -/
theorem exec_locate_success {s t : State} (h : exec .locate s = .next t) (he : t.lastErr = none) :
    coordsInRange s.codec.lat.toInt s.codec.lon.toInt = true ∧
      t = succeed (writeLocator (locatorChars (shiftLon s.codec.lon.toInt) (shiftLat s.codec.lat.toInt)) s) := by
  by_cases hin : coordsInRange s.codec.lat.toInt s.codec.lon.toInt = true
  · cases (exec_locate_of_inRange hin).symm.trans h
    exact ⟨hin, rfl⟩
  · cases (exec_locate_of_outOfRange hin).symm.trans h
    cases he

/-- Settles O24: the six indices of a position in range are below 18, 10 and 24, and LAT and LON decide both the end and the
locator. -/
theorem locatorPattern : Obligations.LocatorPattern := by
  unfold Obligations.LocatorPattern
  constructor
  · intro s t h he
    obtain ⟨hin, rfl⟩ := exec_locate_success h he
    obtain ⟨hx, hy⟩ := shift_lt hin
    obtain ⟨h0, h1⟩ := toNat_locatorChars_field hx hy
    obtain ⟨h2, h3⟩ := toNat_locatorChars_square (shiftLon s.codec.lon.toInt) (shiftLat s.codec.lat.toInt)
    obtain ⟨h4, h5⟩ := toNat_locatorChars_subsquare (shiftLon s.codec.lon.toInt) (shiftLat s.codec.lat.toInt)
    simp only [readReg_locLo_succeed_writeLocator, readReg_locHi_succeed_writeLocator, lane_word4_0, lane_word4_1,
      lane_word4_2, lane_word4_3, lane_setWidth _ Nat.zero_lt_two, lane_setWidth _ Nat.one_lt_two, lane_half2_0, lane_half2_1,
      h0, h1, h2, h3, h4, h5]
    omega
  · intro s s' t t' (hlat : s.codec.lat = s'.codec.lat) (hlon : s.codec.lon = s'.codec.lon) h h' he
    obtain ⟨hin, rfl⟩ := exec_locate_success h he
    rw [hlat, hlon] at hin ⊢
    cases (exec_locate_of_inRange hin).symm.trans h'
    exact ⟨rfl, rfl, rfl⟩

/-! ### WSPR_ENCODE -/

/-- WSPR_ENCODE ends as its unit answers (41_wspr_encoder.md R140). -/
theorem exec_wsprEncode (s : State) : exec .wsprEncode s = .next (complete s
    ((wsprEncode s.codec.callLo s.codec.callHi s.codec.grid s.codec.power).map fun w => s.setWenc w)) := rfl

/-- The power check is R148's nineteen powers. -/
theorem powerLegal_iff (p : Byte) :
    powerLegal p = true ↔ p.toNat ∈ [0, 3, 7, 10, 13, 17, 20, 23, 27, 30, 33, 37, 40, 43, 47, 50, 53, 57, 60] := by
  simp only [powerLegal, Bool.and_eq_true, Bool.or_eq_true, decide_eq_true_eq, beq_iff_eq, List.mem_cons, List.not_mem_nil,
    or_false]
  omega

/-- Settles O26: the encoder's answer is its results or the first failed check, and the command writes the one or raises the other. -/
theorem wsprEncodeCommand : Obligations.WsprEncodeCommand := by
  unfold Obligations.WsprEncodeCommand
  intro s gridOk powerOk
  have hgrid : gridOk ↔ gridLegal s.codec.grid = true := (gridLegal_iff _).symm
  have hpower : powerOk ↔ powerLegal s.codec.power = true := (powerLegal_iff _).symm
  rw [hgrid, hpower, exec_wsprEncode]
  obtain ⟨n, hn, hg, hp, he⟩ | ⟨hn, he⟩ | ⟨⟨n, hn⟩, hg, he⟩ | ⟨⟨n, hn⟩, hg, hp, he⟩ :=
    wsprEncode_cases s.codec.callLo s.codec.callHi s.codec.grid s.codec.power
  · rw [complete_map_of_ok he, he, hn, hg, hp]
    refine ⟨fun h => absurd rfl (h n), fun m hm => ?_⟩
    cases hm
    exact ⟨fun h => absurd rfl h, fun _ h => absurd rfl h, fun _ _ => ⟨_, rfl, rfl, rfl, rfl⟩⟩
  · rw [complete_map_of_error he, hn]
    exact ⟨fun _ => rfl, nofun⟩
  · rw [complete_map_of_error he, hn, hg]
    exact ⟨fun h => absurd rfl (h n), fun _ _ => ⟨fun _ => rfl, nofun, nofun⟩⟩
  · rw [complete_map_of_error he, hn, hg, hp]
    exact ⟨fun h => absurd rfl (h n), fun _ _ => ⟨fun h => absurd rfl h, fun _ _ => rfl, nofun⟩⟩

end Sys2Proof.Machine
end

section
/-! The U4B codec: U4B_ENC_ENG on every operand, both round trips, and why a telemetry frame always encodes (42_u4b_codec.md R195 to
R225), with the proofs of O35, O38, O39 and O40. -/

namespace Sys2Proof.Machine

/-! ### The engineering frame -/

/-- The quantised temperature (42_u4b_codec.md R200). -/
theorem quantTemp_eq (temp : Int) :
    quantTemp temp = ((if temp < -50 then -50 else if 39 < temp then 39 else temp) + 50).toNat := by
  simp only [quantTemp, clampInt]
  congr 2
  split_ifs <;> omega

/-- The quantised voltage, half up (42_u4b_codec.md R201; log 6). -/
theorem quantVolt_eq (mv : Nat) :
    quantVolt .halfUp mv = ((if mv < 3000 then 3000 else if 4950 < mv then 4950 else mv) - 3000 + 25) / 50 := by
  simp only [quantVolt, clampNat]
  congr 3
  split_ifs <;> omega

/-- The quantised speed (42_u4b_codec.md R202). -/
theorem quantSpeed_eq (spd : Nat) : quantSpeed spd = (if 82 < spd then 82 else spd) / 2 := by
  simp only [quantSpeed, clampNat]
  congr 1
  split_ifs <;> omega

/-- The two bits of FLAGS as the host reads them (10_state.md R33). -/
theorem readReg_flags_bits (s : State) :
    (readReg .flags s).getLsbD 0 = healthFlag s ∧ (readReg .flags s).getLsbD 1 = orientFlag s := by
  simp [readReg, healthFlag, orientFlag]

/-- The grid and the power of an engineering frame are those of its telem_int (42_u4b_codec.md R204, R206). -/
theorem encEng_eq (temp volt speed : Word) (orient health : Bool) :
    (encEng temp volt speed orient health).grid = engGrid (encEng temp volt speed orient health).t ∧
      (encEng temp volt speed orient health).power = engPower (encEng temp volt speed orient health).t := by
  simp only [encEng, and_self]

/-- The frame of the engineering operands in the codec registers (42_u4b_codec.md R198). -/
def engFrame (s : State) : EngFrame := encEng s.codec.temp s.codec.volt s.codec.speed (orientFlag s) (healthFlag s)

/-- U4B_ENC_ENG writes the frame of its operands (42_u4b_codec.md R198, R207). -/
theorem exec_u4bEncEng (s : State) : exec .u4bEncEng s = .next (succeed (writeEngFrame (engFrame s) s)) := rfl

/-- POWER_LUT at the index of a frame's power (42_u4b_codec.md R204). -/
theorem powerLut_getElem?_engPower (t : Nat) : powerLut[t % 19]? = some (engPower t) := by
  have hlt : t % 19 < powerLut.length := Nat.mod_lt _ (by decide)
  rw [engPower, List.getD_eq_getElem _ _ hlt, List.getElem?_eq_getElem hlt]

/-- The codes of a frame's grid characters (42_u4b_codec.md R206). -/
theorem toNat_lane_engGrid {t : Nat} (h : t ≤ 604799) :
    (lane (engGrid t) 0).toNat = 0x41 + t / 19 / 1800 ∧ (lane (engGrid t) 1).toNat = 0x41 + t / 19 / 100 % 18 ∧
      (lane (engGrid t) 2).toNat = 0x30 + t / 19 / 10 % 10 ∧ (lane (engGrid t) 3).toNat = 0x30 + t / 19 % 10 := by
  simp only [engGrid, lane_word4_0, lane_word4_1, lane_word4_2, lane_word4_3]
  exact ⟨toNat_chrPlus (c := 'A') (by simp; omega), toNat_chrPlus (c := 'A') (by simp; omega),
    toNat_chrPlus (c := '0') (by simp; omega), toNat_chrPlus (c := '0') (by simp; omega)⟩

/-- The three result registers of U4B_ENC_ENG (42_u4b_codec.md R207). -/
theorem readReg_succeed_writeEngFrame (f : EngFrame) (s : State) :
    readReg .uengInt (succeed (writeEngFrame f s)) = (BitVec.ofNat 20 f.t).setWidth 32 ∧
      readReg .upower (succeed (writeEngFrame f s)) = f.power.setWidth 32 ∧
      readReg .ugrid (succeed (writeEngFrame f s)) = f.grid :=
  ⟨rfl, rfl, rfl⟩

/-- UENG_INT after U4B_ENC_ENG holds telem_int whole (42_u4b_codec.md R203, R207). -/
theorem toNat_uengInt_writeEngFrame (s : State) :
    (readReg .uengInt (succeed (writeEngFrame (engFrame s) s))).toNat = (engFrame s).t :=
  toNat_setWidth_ofNat_20 ((encEng_t_le _ _ _ _ _).trans_lt (by decide))

/-- Settles O35: clamping and quantising are the statement's, telem_int is below 2^20, and each grid character's value is below its
base. -/
theorem u4bEncodeEngineering : Obligations.U4bEncodeEngineering := by
  unfold Obligations.U4bEncodeEngineering
  intro s temp mv spd tq vq sq tele
  obtain ⟨hhealth, horient⟩ := readReg_flags_bits s
  have ht : (engFrame s).t = tele := by
    simp only [tele, hhealth, horient, tq, vq, sq, ← quantTemp_eq, ← quantVolt_eq, ← quantSpeed_eq]
    rfl
  have hle : tele ≤ 604799 := ht ▸ encEng_t_le _ _ _ _ _
  have hint := toNat_uengInt_writeEngFrame s
  obtain ⟨-, hpower, hgrid⟩ := readReg_succeed_writeEngFrame (engFrame s) s
  obtain ⟨hgridt, hpowert⟩ : (engFrame s).grid = engGrid (engFrame s).t ∧ (engFrame s).power = engPower (engFrame s).t :=
    encEng_eq _ _ _ _ _
  rw [ht] at hgridt hpowert
  refine ⟨_, exec_u4bEncEng s, rfl, rfl, commandFrame_succeed_setCodec (readsSameBut_writeEngFrame _ s), hint.trans ht, hle, ?_, ?_⟩
  · rw [hpower, hpowert, BitVec.toNat_setWidth_of_le (by decide)]
    exact (map_toNat_powerLut_getElem? _ _).mpr (powerLut_getElem?_engPower tele)
  · rw [hgrid, hgridt]
    exact toNat_lane_engGrid hle

/-! ### The call round trip -/

/-- A U4B_ENC_CALL without error had legal operands and wrote their frame (42_u4b_codec.md R190, R197). -/
theorem exec_u4bEncCall_success {s t : State} (h : exec .u4bEncCall s = .next t) (he : t.lastErr = none) :
    ∃ f, encCall s.codec.chan s.codec.subsq s.codec.alt = .ok f ∧ t = succeed (writeCallFrame f s) := by
  rw [exec_u4bEncCall] at h
  cases hf : encCall s.codec.chan s.codec.subsq s.codec.alt with
  | ok f =>
    rw [complete_map_of_ok hf] at h
    cases h
    exact ⟨f, rfl, rfl⟩
  | error e =>
    rw [complete_map_of_error hf] at h
    cases h
    cases he

/-- The subsquare letters from telem_int (42_u4b_codec.md R194, R220). -/
theorem callValuesOf_callInt_subsq (cs : Str6) {sq : BitVec 16} {alt : Int} (hs : subsqLegal sq = true)
    (ha : altitudeLegal alt = true) : (callValuesOf cs (callInt sq alt)).subsq = sq := by
  simp only [subsqLegal, Bool.and_eq_true] at hs
  have halt := (altitudeLegal_iff alt).mp ha
  have h1 := lowerVal_lt hs.2
  have hhigh : callInt sq alt / 1068 / 24 = lowerVal (lane sq 0) := by
    simp only [callInt]
    omega
  have hlow : callInt sq alt / 1068 % 24 = lowerVal (lane sq 1) := by
    simp only [callInt]
    omega
  rw [callValuesOf, hhigh, hlow, chrPlus_lowerVal hs.1, chrPlus_lowerVal hs.2, half2_lanes]

/-- The altitude from telem_int, rounded down to 20 m (42_u4b_codec.md R194, R220). -/
theorem callValuesOf_callInt_alt (cs : Str6) (sq : BitVec 16) {alt : Int} (ha : altitudeLegal alt = true) :
    (BitVec.ofNat 32 (callValuesOf cs (callInt sq alt)).alt).toInt = 20 * (alt / 20) := by
  have halt := (altitudeLegal_iff alt).mp ha
  have hvalue : (callValuesOf cs (callInt sq alt)).alt = (alt / 20).toNat * 20 := by
    simp only [callValuesOf, callInt]
    omega
  have hnat : (BitVec.ofNat 32 ((alt / 20).toNat * 20)).toNat = (alt / 20).toNat * 20 := Nat.mod_eq_of_lt (by omega)
  rw [hvalue, BitVec.toInt_eq_toNat_of_lt (by rw [hnat]; omega), hnat]
  omega

/-- The call decoder undoes the call encoder (42_u4b_codec.md R225). -/
theorem decCall_of_encCall {ch sq : BitVec 16} {alt : Word} {f : CallFrame} (h : encCall ch sq alt = .ok f) :
    decCall f.call = .ok (callValuesOf f.call f.t) := by
  obtain ⟨hc, hs, ha, rfl⟩ := encCall_ok h
  have hle := callInt_le hs ha
  have hint := decodedCallInt_pseudoCall ch hle
  have hdecode := decCall_of_legal (callChannelLegal_pseudoCall hc _) (callValuesLegal_pseudoCall ch hle) (by rw [hint]; omega)
  rwa [hint] at hdecode

/-- Settles O38: the decoder finds the frame the encoder wrote, whose digits are those of telem_int, and telem_int is the subsquare and
the altitude in mixed radix. -/
theorem callRoundTrip : Obligations.CallRoundTrip := by
  unfold Obligations.CallRoundTrip
  intro s t h he
  obtain ⟨f, hf, rfl⟩ := exec_u4bEncCall_success h he
  obtain ⟨-, hs, ha, rfl⟩ := encCall_ok hf
  set f : CallFrame := ⟨pseudoCall s.codec.chan (callInt s.codec.subsq s.codec.alt.toInt), callInt s.codec.subsq s.codec.alt.toInt⟩
  have hdecode : decCall (str6Of (strLo f.call) (strHi f.call)) = .ok (callValuesOf f.call f.t) := by
    rw [str6Of_str, decCall_of_encCall hf]
  obtain ⟨hint, halt, hchan, hsubsq⟩ := readReg_succeed_writeCallValues (callValuesOf f.call f.t) (succeed (writeCallFrame f s))
  refine ⟨_, (exec_u4bDecCall _).trans (congrArg _ (complete_map_of_ok hdecode _ _)), rfl, ?_⟩
  rw [hint, halt, hchan, hsubsq]
  refine ⟨?_, ?_, callValuesOf_callInt_alt f.call _ ha, rfl⟩
  · exact congrArg (BitVec.setWidth 32) (half2_lanes s.codec.chan)
  · exact congrArg (BitVec.setWidth 32) (callValuesOf_callInt_subsq f.call hs ha)

/-! ### The engineering round trip -/

/-- Demultiplexing undoes the packing of an engineering frame (42_u4b_codec.md R203, R214). -/
theorem demux_engInt {tq vq sq : Nat} (hv : vq ≤ 39) (hs : sq ≤ 41) (orient health : Bool) :
    demux (engInt tq vq sq orient health) =
      ⟨(tq : Int) - 50, 3000 + 50 * vq, 2 * sq, orient, health, engInt tq vq sq orient health⟩ := by
  have ho := Bool.toNat_lt orient
  have hh := Bool.toNat_lt health
  have htq : engInt tq vq sq orient health / 6720 = tq := by simp only [engInt]; omega
  have hvq : engInt tq vq sq orient health / 168 % 40 = vq := by simp only [engInt]; omega
  have hsq : engInt tq vq sq orient health / 4 % 42 = sq := by simp only [engInt]; omega
  have horient : engInt tq vq sq orient health / 2 % 2 = orient.toNat := by simp only [engInt]; omega
  have hhealth : engInt tq vq sq orient health % 2 = health.toNat := by simp only [engInt]; omega
  have hbit (b : Bool) : (b.toNat == 1) = b := by cases b <;> rfl
  rw [demux, htq, hvq, hsq, horient, hhealth, hbit, hbit]

/-- The engineering decoder finds the frame's telem_int, or 6 less where POWER_LUT repeats 37 (42_u4b_codec.md R212, R225;
90_conflicts.md C1). -/
theorem decEng_engFrame (s : State) : decEng (engFrame s).grid (engFrame s).power =
    .ok (demux (if (engFrame s).t % 19 = 17 then (engFrame s).t - 6 else (engFrame s).t)) := by
  obtain ⟨hgrid, hpower⟩ : (engFrame s).grid = engGrid (engFrame s).t ∧ (engFrame s).power = engPower (engFrame s).t :=
    encEng_eq _ _ _ _ _
  have hle : (engFrame s).t ≤ 604799 := encEng_t_le _ _ _ _ _
  have hindex (t : Nat) : t / 19 * 19 + (if t % 19 = 17 then 11 else t % 19) = if t % 19 = 17 then t - 6 else t := by
    split_ifs <;> omega
  rw [hgrid, hpower, decEng_of_legal (gridLegal_engGrid hle) (findIdx_engPower _), gridInt_engGrid hle, hindex]

/-- The two bits of FLAGS make FLAGS (10_state.md R33). -/
theorem flags_append (s : State) : BitVec.ofBool (orientFlag s) ++ BitVec.ofBool (healthFlag s) = s.codec.flags := by
  have hall : ∀ x : BitVec 2, BitVec.ofBool (x.getLsbD 1) ++ BitVec.ofBool (x.getLsbD 0) = x := by decide
  exact hall s.codec.flags

/-- Demultiplexing the frame of the codec registers gives their clamped and quantised values (42_u4b_codec.md R225; log 6). -/
theorem demux_engFrame (s : State) : demux (engFrame s).t =
    ⟨max (-50) (min s.codec.temp.toInt 39), 3000 + 50 * ((max 3000 (min s.codec.volt.toNat 4950) - 2975) / 50),
      min s.codec.speed.toNat 82 / 2 * 2, orientFlag s, healthFlag s, (engFrame s).t⟩ := by
  have htemp : (quantTemp s.codec.temp.toInt : Int) - 50 = max (-50) (min s.codec.temp.toInt 39) := by
    simp only [quantTemp, clampInt]
    omega
  have hvolt : quantVolt .halfUp s.codec.volt.toNat = (max 3000 (min s.codec.volt.toNat 4950) - 2975) / 50 := by
    simp only [quantVolt, clampNat]
    omega
  have hspeed : 2 * quantSpeed s.codec.speed.toNat = min s.codec.speed.toNat 82 / 2 * 2 := by
    simp only [quantSpeed, clampNat]
    omega
  rw [← htemp, ← hvolt, ← hspeed]
  exact demux_engInt (quantVolt_le _) (quantSpeed_le _) _ _

/-- U4B_DEC_ENG on a frame U4B_ENC_ENG wrote (42_u4b_codec.md R225). -/
theorem exec_u4bDecEng_writeEngFrame {f : EngFrame} {v : EngValues} (h : decEng f.grid f.power = .ok v) (s : State) :
    exec .u4bDecEng (succeed (writeEngFrame f s)) = .next (succeed (writeEngValues v (succeed (writeEngFrame f s)))) :=
  (exec_u4bDecEng _).trans (congrArg _ (complete_map_of_ok h _ _))

/-- Settles O39: the decoder's grid and index give telem_int back, or 6 less; demultiplexing it gives the quantised values, which are
the clamped ones in their steps. -/
theorem engineeringRoundTrip : Obligations.EngineeringRoundTrip := by
  unfold Obligations.EngineeringRoundTrip
  intro s t h temp mv spd tele
  cases (exec_u4bEncEng s).symm.trans h
  have htele : tele = (engFrame s).t := toNat_uengInt_writeEngFrame s
  have hlt : (engFrame s).t < 2 ^ 20 := (encEng_t_le _ _ _ _ _).trans_lt (by decide)
  rw [htele]
  refine ⟨_, exec_u4bDecEng_writeEngFrame (decEng_engFrame s) s, rfl, fun h17 => ?_, fun h17 => ?_⟩
  · rw [if_pos h17]
    exact toNat_setWidth_ofNat_20 ((Nat.sub_le _ _).trans_lt hlt)
  · obtain ⟨hint, htemp, hvolt, hspeed, hflags⟩ :=
      readReg_succeed_writeEngValues (demux (engFrame s).t) (succeed (writeEngFrame (engFrame s) s))
    rw [if_neg h17, hint, htemp, hvolt, hspeed, hflags, demux_engFrame, flags_append]
    dsimp only
    refine ⟨toNat_setWidth_ofNat_20 hlt, ?_, ?_, ?_, rfl⟩
    · exact BitVec.toInt_ofInt_eq_self (by decide) (by omega) (by omega)
    · exact Nat.mod_eq_of_lt (by omega)
    · exact Nat.mod_eq_of_lt (by omega)

/-! ### Telemetry frames encode -/

/-- A callsign in the legal classes holds no NUL (41_wspr_encoder.md R143). -/
theorem ne_nul_of_callClassesLegal {s : Str6} (h : callClassesLegal s = true) : ∀ c ∈ strChars s, c ≠ chNul := by
  rw [callClassesLegal_iff] at h
  have hdigit (b : Byte) (hb : isDigit b = true) : b ≠ chNul := by rintro rfl; cases hb
  have hupper (b : Byte) (hb : isUpper b = true) : b ≠ chNul := by rintro rfl; cases hb
  have hspace (b : Byte) (hb : b = 0x20#8) : b ≠ chNul := by rintro rfl; cases hb
  obtain ⟨h0, h1, h2, h3, h4, h5⟩ := h
  simp only [strChars, List.forall_mem_cons]
  refine ⟨?_, ?_, hdigit _ h2, ?_, ?_, ?_, nofun⟩
  · exact h0.elim (hdigit _) (Or.elim · (hupper _) (hspace _))
  · exact h1.elim (hdigit _) (hupper _)
  · exact h3.elim (hupper _) (hspace _)
  · exact h4.elim (hupper _) (hspace _)
  · exact h5.elim (hupper _) (hspace _)

/-- An accepted pseudo-callsign is in the legal classes of a callsign (42_u4b_codec.md R196). -/
theorem callClassesLegal_of_encCall {ch sq : BitVec 16} {alt : Word} {f : CallFrame} (h : encCall ch sq alt = .ok f) :
    callClassesLegal f.call = true := by
  obtain ⟨hc, hs, ha, rfl⟩ := encCall_ok h
  exact callClassesLegal_pseudoCall hc (callInt_le hs ha)

/-- A pseudo-callsign's register pair holds it whole (30_encoding.md R94). -/
theorem nulTerminated_of_encCall {ch sq : BitVec 16} {alt : Word} {f : CallFrame} (h : encCall ch sq alt = .ok f) :
    nulTerminated (strLo f.call) (strHi f.call) = strChars f.call :=
  nulTerminated_str (ne_nul_of_callClassesLegal (callClassesLegal_of_encCall h))

/-- Settles O40: a pseudo-callsign is six characters in the legal classes, an engineering grid is four in theirs, and every entry of
POWER_LUT is a legal power. -/
theorem telemetryFramesEncode : Obligations.TelemetryFramesEncode := by
  unfold Obligations.TelemetryFramesEncode
  intro ch sq alt temp volt speed orient health f hf
  have hnormal : normalise (nulTerminated (strLo f.call) (strHi f.call)) = .ok f.call := by
    rw [nulTerminated_of_encCall hf]
    exact normalise_six (callClassesLegal_of_encCall hf)
  obtain ⟨hgrid, hpower⟩ := encEng_eq temp volt speed orient health
  rw [hgrid, hpower]
  exact ⟨hnormal, _, wsprEncode_ok hnormal (gridLegal_engGrid (encEng_t_le _ _ _ _ _)) (powerLegal_engPower _)⟩

end Sys2Proof.Machine
end

section
/-! Building a message (43_scheduler.md R247, R252 to R259): what makes a configuration valid, what a build answers and what the tick
then commits or records, with the proofs of O41, O45, O46 and O47. -/

namespace Sys2Proof.Machine

/-! ### The configuration -/

/-- The callsign check (43_scheduler.md R247). -/
theorem cfgCallValid_iff (c : ScfgRegs) :
    cfgCallValid c = true ↔ ∃ n, normalise (nulTerminated c.callLo c.callHi) = .ok n := by
  unfold cfgCallValid
  cases normalise (nulTerminated c.callLo c.callHi) <;> simp

/-- The offset check (43_scheduler.md R247). -/
theorem cfgOffsetsValid_iff (c : ScfgRegs) :
    cfgOffsetsValid c = true ↔ ∀ i : Fin 8, i.val < c.noff.toNat → (offsetSlot c.off i).toNat ≤ Config.offsetMax := by
  simp [cfgOffsetsValid, imp_iff_not_or]

/-- The five checks of R247. -/
theorem cfgValid_iff (c : ScfgRegs) :
    cfgValid c = true ↔ (∃ n, normalise (nulTerminated c.callLo c.callHi) = .ok n) ∧ c.tmin.toNat ≤ 9 ∧ 1 ≤ c.noff.toNat ∧
      c.noff.toNat ≤ 8 ∧ (∀ i : Fin 8, i.val < c.noff.toNat → (offsetSlot c.off i).toNat ≤ Config.offsetMax) ∧
      (modeU4b c = true → channelLegal c.chan = true) := by
  simp only [cfgValid, Bool.and_eq_true, decide_eq_true_eq, cfgCallValid_iff, cfgOffsetsValid_iff, Bool.or_eq_true,
    Bool.not_eq_true', ← Bool.not_eq_true (modeU4b c), ← imp_iff_not_or, and_assoc]

/-- The two bits of SCFG_CTRL as the host reads them (10_state.md R42). -/
theorem readReg_scfgCtrl_bits (s : State) :
    (readReg .scfgCtrl s).getLsbD 0 = modeU4b s.scfg ∧ (readReg .scfgCtrl s).getLsbD 1 = logEnabled s.scfg := by
  simp [readReg, modeU4b, logEnabled]

/-- SCFG_TMIN reads as its number (10_state.md R43). -/
@[simp] theorem toNat_readReg_scfgTmin (s : State) : (readReg .scfgTmin s).toNat = s.scfg.tmin.toNat :=
  BitVec.toNat_setWidth_of_le (by decide)

/-- Settles O41: STATUS bit 10 is the live CFG_ERR, which negates the five checks. -/
theorem configurationValidity : Obligations.ConfigurationValidity := by
  unfold Obligations.ConfigurationValidity
  intro s ch0 ch1
  obtain ⟨hmode, -⟩ := readReg_scfgCtrl_bits s
  have hch0 : ch0 = lane s.scfg.chan 0 := lane_setWidth _ Nat.zero_lt_two
  have hch1 : ch1 = lane s.scfg.chan 1 := lane_setWidth _ Nat.one_lt_two
  rw [getLsbD_status_cfgErr, cfgErr, Bool.not_eq_false', cfgValid_iff, toNat_readReg_scfgTmin, toNat_readReg_scfgNoff, hmode, hch0,
    hch1, ← channelLegal_iff]
  rfl

/-! ### What a build answers -/

/-- The cycle's type, as the host finds it in the registers (43_scheduler.md R253). -/
theorem telemetryCycle_iff (s : State) : telemetryCycle s.scfg s.fix = true ↔
    (readReg .scfgCtrl s).getLsbD 0 = true ∧ (readReg .fixTime s).toNat / 100 % 10 = (readReg .scfgTmin s).toNat := by
  obtain ⟨hmode, -⟩ := readReg_scfgCtrl_bits s
  rw [hmode, toNat_readReg_scfgTmin, telemetryCycle, Bool.and_eq_true, beq_iff_eq]
  rfl

/-- The snapshot a build uses: a beacon cycle samples, and a telemetry cycle samples when both snapshot voltages are 0
(43_scheduler.md R254). -/
theorem messageSnap_eq (telem : Bool) (s : State) : messageSnap telem s =
    if telem = true ∧ ¬(readReg .snapVin s = 0#32 ∧ readReg .snapVsol s = 0#32) then s.snap else sample s.fix s.sns s.snap := by
  have hvolts : (s.snap.vin == 0 && s.snap.vsol == 0) = true ↔ readReg .snapVin s = 0#32 ∧ readReg .snapVsol s = 0#32 := by
    simp [readReg]
  cases telem with
  | false => rfl
  | true =>
    rw [messageSnap, mustSample, Bool.not_true, Bool.false_or]
    simp only [hvolts, true_and, ite_not]

section
variable {s : State}

/-- A build whose parts all answer (43_scheduler.md R252). -/
theorem buildMessage_of_ok {telem : Bool} {snap : Snapshot} {loc : Str6} {text : MessageText} {w : WencRegs}
    (htelem : telemetryCycle s.scfg s.fix = telem) (hsnap : messageSnap telem s = snap) (hloc : locate snap.lat snap.lon = .ok loc)
    (htext : messageText telem s.scfg snap loc = .ok text) (hw : wsprEncode text.callLo text.callHi text.grid text.power = .ok w) :
    buildMessage s = .ok ⟨telem, snap, text, w.sym⟩ := by
  simp only [buildMessage, htelem, hsnap, hloc, htext, hw]

/-- The telemetry text of a frame (43_scheduler.md R257). -/
theorem telemetryText_of_ok {c : ScfgRegs} {snap : Snapshot} {loc : Str6} {f : CallFrame}
    (hf : encCall c.chan (half2 loc.c4 loc.c5) snap.alt = .ok f) :
    messageText true c snap loc = .ok
      ⟨strLo f.call, strHi f.call, (encEng snap.temp snap.vin snap.speed (snapOrient snap) (snapHealth snap)).grid,
        (encEng snap.temp snap.vin snap.speed (snapOrient snap) (snapHealth snap)).power⟩ := by
  simp only [messageText, telemetryText, hf, if_true]

/-- A tick that has built a message commits it (43_scheduler.md R258). -/
theorem exec_schedTick_of_built (hs : s.sched.state = .collectTelemetry) {m : Message} (hb : buildMessage s = .ok m) :
    exec .schedTick s = .next { s with
      lastErr := none
      snap := m.snap
      txbuf := m.sym
      sched := { s.sched with
        msgCallLo := m.text.callLo, msgCallHi := m.text.callHi, msgGrid := m.text.grid, msgPower := m.text.power
        msgTelem := m.telem, msgValid := true, state := .waitForTransmit, ppsLast := s.sched.ppsCount }
      trace := s.trace ++ if logEnabled s.scfg then [logEvent s m.text] else [] } := by
  have hbuild : buildMessage (succeed s) = .ok m := hb
  rw [exec_schedTick_collectTelemetry hs, tickCollectTelemetry, hbuild]
  simp only [commitMessage_eq]
  rfl

/-- A tick whose build has failed records the error and stays (43_scheduler.md R259, 60_exceptions.md R315). -/
theorem exec_schedTick_of_buildFailed (hs : s.sched.state = .collectTelemetry) {e : Err} (hb : buildMessage s = .error e) :
    exec .schedTick s = .next { s with
      lastErr := some e, schedErr := true, schedErrCode := some e, sched := { s.sched with ppsLast := s.sched.ppsCount } } := by
  have hbuild : buildMessage (succeed s) = .error e := hb
  rw [exec_schedTick_collectTelemetry hs, tickCollectTelemetry, hbuild]
  rfl

end

/-! ### The two kinds of cycle -/

/-- Settles O45: a beacon cycle samples, and its text is the configured callsign, the coarse locator and power 10. -/
theorem beaconCommit : Obligations.BeaconCommit := by
  unfold Obligations.BeaconCommit
  refine ⟨fun s loc w hs hcycle hloc hw => ?_, fun f n old => rfl⟩
  rw [← telemetryCycle_iff, Bool.not_eq_true] at hcycle
  obtain ⟨-, hlog⟩ := readReg_scfgCtrl_bits s
  have hb := buildMessage_of_ok (text := beaconText s.scfg loc) hcycle rfl hloc rfl hw
  rw [exec_schedTick_of_built hs hb, hlog]
  rfl

/-- Settles O46: a telemetry cycle uses the held snapshot unless both voltages are 0, and its text is the two frames built from it; the
pseudo-callsign holds no NUL, so the log shows it whole. -/
theorem telemetryCommit : Obligations.TelemetryCommit := by
  unfold Obligations.TelemetryCommit
  intro s loc f w hs hcycle snap eng hloc hf hw
  rw [← telemetryCycle_iff] at hcycle
  obtain ⟨-, hlog⟩ := readReg_scfgCtrl_bits s
  have hsnap : messageSnap true s = snap := by
    rw [messageSnap_eq]
    simp only [true_and, ite_not]
    rfl
  have heng : encEng snap.temp snap.vin snap.speed (snapOrient snap) (snapHealth snap) = eng := rfl
  have htext : messageText true s.scfg snap loc = .ok ⟨strLo f.call, strHi f.call, eng.grid, eng.power⟩ := by
    rw [telemetryText_of_ok hf, heng]
  clear_value eng
  have hb := buildMessage_of_ok hcycle hsnap hloc htext hw
  rw [exec_schedTick_of_built hs hb, hlog, ← nulTerminated_of_encCall hf]
  rfl

/-! ### When a build fails -/

/-- A telemetry cycle of a valid configuration has a legal channel (43_scheduler.md R247, R253). -/
theorem channelLegal_of_telemetryCycle {c : ScfgRegs} {f : FixRegs} (hcfg : cfgValid c = true)
    (ht : telemetryCycle c f = true) : channelLegal c.chan = true := by
  obtain ⟨-, -, -, -, -, hchannel⟩ := (cfgValid_iff _).mp hcfg
  rw [telemetryCycle, Bool.and_eq_true] at ht
  exact hchannel ht.1

section
variable {s : State} {telem : Bool} {snap : Snapshot} (htelem : telemetryCycle s.scfg s.fix = telem)
  (hsnap : messageSnap telem s = snap)
include htelem hsnap

/-- A build on coordinates out of range fails on them (43_scheduler.md R252, R259). -/
theorem buildMessage_of_coordsOut (hcoords : ¬ coordsInRange snap.lat.toInt snap.lon.toInt = true) :
    buildMessage s = .error .coordOutOfRange := by
  simp only [buildMessage, htelem, hsnap, locate_error hcoords]

/-- A telemetry build on an altitude out of range fails on it, past the coordinates (43_scheduler.md R252, R259). -/
theorem buildMessage_of_altitudeOut (hcfg : cfgValid s.scfg = true) (ht : telem = true)
    (hcoords : coordsInRange snap.lat.toInt snap.lon.toInt = true) (halt : ¬ altitudeLegal snap.alt.toInt = true) :
    buildMessage s = .error .altitudeOutOfRange := by
  subst ht
  have hchannel := channelLegal_of_telemetryCycle hcfg htelem
  have hcall := encCall_of_illegalAltitude hchannel (subsqLegal_locator (shiftLon snap.lon.toInt) (shiftLat snap.lat.toInt)) halt
  simp only [buildMessage, htelem, hsnap, locate_ok hcoords, messageText, if_true, telemetryText, hcall]

/-- A build in range succeeds: a valid configuration's callsign normalises and its channel is legal, a locator is a legal grid and
subsquare, and telemetry frames always encode (43_scheduler.md R256, R257, R259). -/
theorem buildMessage_of_inRange (hcfg : cfgValid s.scfg = true) (hcoords : coordsInRange snap.lat.toInt snap.lon.toInt = true)
    (halt : telem = true → altitudeLegal snap.alt.toInt = true) : ∃ m, buildMessage s = .ok m := by
  obtain ⟨hx, hy⟩ := shift_lt hcoords
  have hloc := locate_ok hcoords
  cases telem with
  | false =>
    obtain ⟨⟨n, hn⟩, -⟩ := (cfgValid_iff _).mp hcfg
    exact ⟨_, buildMessage_of_ok htelem hsnap hloc rfl
      (wsprEncode_ok hn (gridLegal_locator hx hy) ((powerLegal_iff Config.beaconPower).mpr (by decide)))⟩
  | true =>
    have hchannel := channelLegal_of_telemetryCycle hcfg htelem
    have hf := encCall_of_legal hchannel (subsqLegal_locator (shiftLon snap.lon.toInt) (shiftLat snap.lat.toInt)) (halt rfl)
    obtain ⟨-, w, hw⟩ := telemetryFramesEncode _ _ _ snap.temp snap.vin snap.speed (snapOrient snap) (snapHealth snap) _ hf
    exact ⟨_, buildMessage_of_ok htelem hsnap hloc (telemetryText_of_ok hf) hw⟩

end

/-- Settles O47: the build's checks are the coordinates, then on a telemetry cycle the altitude; past them nothing fails under a valid
configuration, and the tick commits. -/
theorem buildOutcome : Obligations.BuildOutcome := by
  unfold Obligations.BuildOutcome
  intro s hs hcfg telem old failed lat lon alt hold hnew coordsOk altOk
  set snap := messageSnap (telemetryCycle s.scfg s.fix) s with hsnap
  have htelem : telem ↔ telemetryCycle s.scfg s.fix = true := (telemetryCycle_iff s).symm
  obtain ⟨hlat, hlon, halt⟩ : lat = snap.lat.toInt ∧ lon = snap.lon.toInt ∧ alt = snap.alt.toInt := by
    by_cases ho : old
    · rw [hsnap, messageSnap_eq, if_pos ⟨htelem.mp ho.1, ho.2⟩]
      exact hold ho
    · rw [hsnap, messageSnap_eq, if_neg fun h => ho ⟨htelem.mpr h.1, h.2⟩]
      exact hnew ho
  have hcoords : coordsOk ↔ coordsInRange snap.lat.toInt snap.lon.toInt = true := by
    rw [coordsInRange_iff, ← hlat, ← hlon]
  have haltitude : altOk ↔ altitudeLegal snap.alt.toInt = true := by
    rw [altitudeLegal_iff, ← halt]
  rw [hcoords, haltitude, htelem]
  refine ⟨fun hout => ?_, fun hin ht hout => ?_, fun hin hok => ?_⟩
  · exact exec_schedTick_of_buildFailed hs (buildMessage_of_coordsOut rfl rfl hout)
  · exact exec_schedTick_of_buildFailed hs (buildMessage_of_altitudeOut rfl rfl hcfg ht hin hout)
  · obtain ⟨m, hm⟩ := buildMessage_of_inRange rfl rfl hcfg hin hok
    exact ⟨_, exec_schedTick_of_built hs hm, rfl, rfl, rfl⟩

end Sys2Proof.Machine
end

section
/-! From Init to a whole transmission (43_scheduler.md R291): one lemma per command of the schedule, each leaving what the next one needs,
with the proof of O56. -/

namespace Sys2Proof.Machine

/-- The configuration is valid and the fix is one a schedule can run on: after second 10, with satellites, present, in range, and at
second 59 of an odd minute (43_scheduler.md R247, R250, R251, R257, R261). -/
structure FixReady (s : State) : Prop where
  cfg : cfgValid s.scfg = true
  time : 10 < s.fix.time.toNat
  sats : 0 < s.fix.sats.toNat
  present : noFix s.fix = false
  coords : coordsInRange s.fix.lat.toInt s.fix.lon.toInt = true
  altitude : altitudeLegal s.fix.alt.toInt = true
  minute : minuteOf s.fix.time % 2 = 1
  second : secondOf s.fix.time = 59

/-- The held snapshot is one a telemetry cycle can build from (43_scheduler.md R254, R257). -/
structure SnapReady (s : State) : Prop where
  coords : coordsInRange s.snap.lat.toInt s.snap.lon.toInt = true
  altitude : altitudeLegal s.snap.alt.toInt = true

section
variable {s t : State}

/-- Readiness of the fix depends on the configuration and the fix record alone. -/
theorem FixReady.congr (h : FixReady s) (hscfg : t.scfg = s.scfg) (hfix : t.fix = s.fix) : FixReady t := by
  obtain ⟨h1, h2, h3, h4, h5, h6, h7, h8⟩ := h
  constructor <;> simp only [hscfg, hfix] <;> assumption

/-- Whichever snapshot the build uses is in range (43_scheduler.md R254). -/
theorem messageSnap_inRange (hfix : FixReady s) (hsnap : SnapReady s) (telem : Bool) :
    coordsInRange (messageSnap telem s).lat.toInt (messageSnap telem s).lon.toInt = true ∧
      altitudeLegal (messageSnap telem s).alt.toInt = true := by
  unfold messageSnap
  split
  · exact ⟨hfix.coords, hfix.altitude⟩
  · exact ⟨hsnap.coords, hsnap.altitude⟩

/-- The first tick leaves Init with the PPS registers cleared (43_scheduler.md R249). -/
theorem tick_init_ready (hs : s.sched.state = .init) (hfix : FixReady s) (hsnap : SnapReady s) :
    ∃ t, exec .schedTick s = .next t ∧ t.sched.state = .waitForTime ∧ FixReady t ∧ SnapReady t ∧
      t.sched.ppsCount = 0 ∧ t.sched.ppsLast = 0 := by
  have hcfg : cfgErr (succeed s) = false := congrArg (!·) hfix.cfg
  refine ⟨_, exec_schedTick_init hs, ?_⟩
  rw [tickInit, hcfg]
  exact ⟨rfl, hfix.congr rfl rfl, ⟨hsnap.coords, hsnap.altitude⟩, rfl, rfl⟩

/-- The second tick finds FIX_TIME above PPS_COUNT + 10 (43_scheduler.md R250). -/
theorem tick_waitForTime_ready (hs : s.sched.state = .waitForTime) (hfix : FixReady s) (hsnap : SnapReady s)
    (hcount : s.sched.ppsCount = 0) :
    ∃ t, exec .schedTick s = .next t ∧ t.sched.state = .waitForFix ∧ FixReady t ∧ SnapReady t ∧
      t.sched.ppsCount = 0 ∧ t.sched.ppsLast = 0 := by
  have htest : s.sched.ppsCount.toNat + Config.waittimeMargin < (succeed s).fix.time.toNat ∧ 0 < (succeed s).fix.sats.toNat := by
    rw [hcount]
    exact ⟨hfix.time, hfix.sats⟩
  refine ⟨_, exec_schedTick_waitForTime hs, ?_⟩
  rw [tickWaitForTime, if_pos htest]
  exact ⟨rfl, hfix.congr rfl rfl, ⟨hsnap.coords, hsnap.altitude⟩, hcount, hcount⟩

/-- The third tick finds the fix (43_scheduler.md R251). -/
theorem tick_waitForFix_ready (hs : s.sched.state = .waitForFix) (hfix : FixReady s) (hsnap : SnapReady s)
    (hcount : s.sched.ppsCount = 0) :
    ∃ t, exec .schedTick s = .next t ∧ t.sched.state = .collectTelemetry ∧ FixReady t ∧ SnapReady t ∧
      t.sched.ppsCount = 0 ∧ t.sched.ppsLast = 0 := by
  have htest : ¬ noFix (succeed s).fix = true := Bool.eq_false_iff.mp hfix.present
  refine ⟨_, exec_schedTick_waitForFix hs, ?_⟩
  rw [tickWaitForFix, if_neg htest, configureRadioOnce_eq]
  exact ⟨rfl, hfix.congr rfl rfl, ⟨hsnap.coords, hsnap.altitude⟩, hcount, hcount⟩

/-- The fourth tick builds and commits a message (43_scheduler.md R252, R258). -/
theorem tick_collectTelemetry_ready (hs : s.sched.state = .collectTelemetry) (hfix : FixReady s) (hsnap : SnapReady s)
    (hcount : s.sched.ppsCount = 0) :
    ∃ t, exec .schedTick s = .next t ∧ t.sched.state = .waitForTransmit ∧ FixReady t ∧ t.sched.msgValid = true ∧
      t.sched.ppsCount = 0 ∧ t.sched.ppsLast = 0 := by
  obtain ⟨hcoords, halt⟩ := messageSnap_inRange hfix hsnap (telemetryCycle s.scfg s.fix)
  obtain ⟨m, hm⟩ := buildMessage_of_inRange rfl rfl hfix.cfg hcoords fun _ => halt
  exact ⟨_, exec_schedTick_of_built hs hm, rfl, hfix.congr rfl rfl, rfl, hcount, hcount⟩

/-- The fifth tick finds the slot (43_scheduler.md R260, R261). -/
theorem tick_waitForTransmit_ready (hs : s.sched.state = .waitForTransmit) (hfix : FixReady s) (hvalid : s.sched.msgValid = true)
    (hcount : s.sched.ppsCount = 0) :
    ∃ t, exec .schedTick s = .next t ∧ t.sched.state = .awaitPps ∧ t.sched.msgValid = true ∧
      t.sched.ppsCount = 0 ∧ t.sched.ppsLast = 0 := by
  have hpresent : ¬ noFix (succeed s).fix = true := Bool.eq_false_iff.mp hfix.present
  refine ⟨_, exec_schedTick_waitForTransmit hs, ?_⟩
  rw [tickWaitForTransmit, if_neg hpresent, if_pos ⟨hfix.minute, hfix.second⟩]
  exact ⟨rfl, hvalid, hcount, hcount⟩

/-- The tick after an edge arms the message (43_scheduler.md R263 to R266). -/
theorem tick_awaitPps_ready (hs : s.sched.state = .awaitPps) (hvalid : s.sched.msgValid = true)
    (hedge : s.sched.ppsCount ≠ s.sched.ppsLast) :
    ∃ t, exec .schedTick s = .next t ∧ t.sched.state = .transmitting ∧ t.sched.cursor = 0 ∧ t.sched.toneRun = true ∧
      t.sched.msgValid = true := by
  have htest : s.sched.ppsCount ≠ (succeed s).sched.ppsLast := hedge
  refine ⟨_, exec_schedTick_awaitPps hs, ?_⟩
  rw [tickAwaitPps, if_pos htest]
  exact ⟨rfl, rfl, rfl, hvalid⟩

/-- Five ticks, an edge and a tick arm a message, from Init (43_scheduler.md R291). -/
theorem execAll_arming (hs : s.sched.state = .init) (hfix : FixReady s) (hsnap : SnapReady s) :
    ∃ t, execAll [.schedTick, .schedTick, .schedTick, .schedTick, .schedTick, .ppsEdge, .schedTick] s = .next t ∧
      t.sched.state = .transmitting ∧ t.sched.cursor = 0 ∧ t.sched.toneRun = true ∧ t.sched.msgValid = true := by
  obtain ⟨s₁, e₁, h₁, hfix₁, hsnap₁, hcount₁, -⟩ := tick_init_ready hs hfix hsnap
  obtain ⟨s₂, e₂, h₂, hfix₂, hsnap₂, hcount₂, -⟩ := tick_waitForTime_ready h₁ hfix₁ hsnap₁ hcount₁
  obtain ⟨s₃, e₃, h₃, hfix₃, hsnap₃, hcount₃, -⟩ := tick_waitForFix_ready h₂ hfix₂ hsnap₂ hcount₂
  obtain ⟨s₄, e₄, h₄, hfix₄, hvalid₄, hcount₄, -⟩ := tick_collectTelemetry_ready h₃ hfix₃ hsnap₃ hcount₃
  obtain ⟨s₅, e₅, h₅, hvalid₅, hcount₅, hlast₅⟩ := tick_waitForTransmit_ready h₄ hfix₄ hvalid₄ hcount₄
  have hedge : (afterEdge s₅).sched.ppsCount ≠ (afterEdge s₅).sched.ppsLast := by
    show s₅.sched.ppsCount + 1 ≠ s₅.sched.ppsLast
    rw [hcount₅, hlast₅]
    decide
  obtain ⟨t, e, ht⟩ := tick_awaitPps_ready (s := afterEdge s₅) h₅ hvalid₅ hedge
  refine ⟨t, ?_, ht⟩
  rw [execAll_cons_of_next e₁, execAll_cons_of_next e₂, execAll_cons_of_next e₃, execAll_cons_of_next e₄, execAll_cons_of_next e₅,
    execAll_cons_of_next (exec_ppsEdge s₅), execAll_singleton, e]

end

/-- Settles O56: the schedule arms a message, a whole message is keyed, and the tick after it moves to CollectTelemetry. -/
theorem schedulerLiveness : Obligations.SchedulerLiveness := by
  unfold Obligations.SchedulerLiveness
  intro s hs hcfg htime hsats hpresent hcoords halt hscoords hsalt hminute hsecond
  have hsome : noFix s.fix = false := by
    rw [Bool.eq_false_iff, Ne, noFix_iff, not_and_or]
    exact hpresent
  obtain ⟨armed, harm, hstate, hcursor, hrun, hvalid⟩ :=
    execAll_arming hs ⟨hcfg, htime, hsats, hsome, hcoords, halt, hminute, hsecond⟩ ⟨hscoords, hsalt⟩
  have hback := exec_schedTick_of_allKeyed (s := afterTones armed 162) hstate rfl
  exact ⟨armed, _, _, harm, hstate, hcursor, hrun, hvalid, execAll_wholeMessage hstate hrun hcursor, hstate, rfl,
    (execAll_singleton _ _).trans hback, rfl, rfl⟩

end Sys2Proof.Machine
end

section
/-! The WSPR encoder's bit path, stage by stage: the convolutional code as tap sums, the interleaver's placement, the symbols, and
the whole chain after a WSPR_ENCODE (41_wspr_encoder.md R150 to R162), with the proofs of O30 to O33. -/

namespace Sys2Proof.Machine

/-! ### The convolutional code -/

/-- Bit j of the register after input bit k is input bit k - j, and 0 before the first (41_wspr_encoder.md R153). -/
theorem getLsbD_fecRegister (input : List Bool) {k j : Nat} (hk : k < input.length) (hj : j < 32) :
    (fecRegister 0 input k).getLsbD j = (decide (j ≤ k) && input.getD (k - j) false) := by
  induction k generalizing j with
  | zero =>
    obtain ⟨b, bs, rfl⟩ := List.exists_cons_of_length_pos hk
    cases j with
    | zero => simpa [fecRegister] using getLsbD_shiftIn 0 b 0
    | succ j => simp [fecRegister, getLsbD_shiftIn]
  | succ k ih =>
    have hshift : fecRegister 0 input (k + 1) = shiftIn (fecRegister 0 input k) input[k + 1] := by
      simp only [fecRegister]
      rw [← List.take_append_getElem hk, List.foldl_append]
      rfl
    rw [hshift, getLsbD_shiftIn]
    cases j with
    | zero => simp [hk]
    | succ j =>
      rw [if_neg (Nat.succ_ne_zero j), Nat.add_sub_cancel, ih (by omega) (by omega)]
      simp [hj]

/-- The parity of a masked register counts the input bits at the mask's taps (41_wspr_encoder.md R154, R155). -/
theorem parity_fecRegister_and (poly : Word) (input : List Bool) {k : Nat} (hk : k < input.length) :
    parity (fecRegister 0 input k &&& poly) = decide
      ((List.range 32).countP (fun j => poly.getLsbD j && decide (j ≤ k) && input.getD (k - j) false) % 2 = 1) := by
  have hcount : (List.range 32).countP (fun j => (fecRegister 0 input k &&& poly).getLsbD j) =
      (List.range 32).countP (fun j => poly.getLsbD j && decide (j ≤ k) && input.getD (k - j) false) := by
    refine List.countP_congr fun j hj => ?_
    rw [BitVec.getLsbD_and, getLsbD_fecRegister input hk (List.mem_range.mp hj), Bool.and_comm, Bool.and_assoc]
  rw [parityCountsOnes, hcount]

/-- Settles O30: each FEC bit is the parity of a masked register, whose bits are the last 32 input bits. -/
theorem convolutionTaps : Obligations.ConvolutionTaps := by
  unfold Obligations.ConvolutionTaps
  intro input
  refine ⟨length_convolve 0 0 input, fun k hk => ?_, ?_⟩
  · obtain ⟨h0, h1⟩ := convolve_getElem? 0 0 input hk
    exact ⟨h0.trans (congrArg some (parity_fecRegister_and poly0 input hk)),
      h1.trans (congrArg some (parity_fecRegister_and poly1 input hk))⟩
  · rintro b rest rfl
    cases b <;> exact ⟨rfl, rfl⟩

/-! ### The interleaver -/

/-- A reversal is a byte (41_wspr_encoder.md R158). -/
theorem rev8_lt (j : Nat) : rev8 j < 256 := (bitsOf (fun k => j.testBit (7 - k)) 8).isLt

/-- The bits of a reversal (41_wspr_encoder.md R158). -/
theorem testBit_rev8 (j k : Nat) : (rev8 j).testBit k = (decide (k < 8) && j.testBit (7 - k)) := by
  rw [rev8, BitVec.testBit_toNat, getLsbD_bitsOf]

/-- Reversing twice gives the byte back (41_wspr_encoder.md R158). -/
theorem rev8_rev8 {j : Nat} (hj : j < 256) : rev8 (rev8 j) = j := by
  refine Nat.eq_of_testBit_eq fun k => ?_
  rw [testBit_rev8, testBit_rev8]
  by_cases hk : k < 8
  · simp [hk, show 7 - k < 8 by omega, show 7 - (7 - k) = k by omega]
  · have hbyte : j < 2 ^ k := hj.trans_le (Nat.pow_le_pow_right (n := 2) (i := 8) (by decide) (by omega))
    simp [hk, Nat.testBit_lt_two_pow hbyte]

/-- Different bytes have different reversals. -/
theorem rev8_injOn {i j : Nat} (hi : i < 256) (hj : j < 256) (h : rev8 i = rev8 j) : i = j := by
  rw [← rev8_rev8 hi, h, rev8_rev8 hj]

/-- The number of usable counter values below j, which is the index of the FEC bit the value j places
(41_wspr_encoder.md R157). -/
def usableBelow (j : Nat) : Nat := (List.range j).countP (fun i => decide (rev8 i < 162))

/-- The first n counter values fill as many slots as usable ones are among them. -/
theorem length_slotsOf_range (n : Nat) : (slotsOf (List.range n)).length = usableBelow n := by
  rw [slotsOf, List.length_map, ← List.countP_eq_length_filter, usableBelow]

/-- The loop's 255 counter values place all 162 FEC bits (41_wspr_encoder.md R159). -/
theorem usableBelow_255 : usableBelow 255 = 162 := by decide +kernel

/-- One counter value earlier a bit is still to be placed (41_wspr_encoder.md R159). -/
theorem usableBelow_254 : usableBelow 254 = 161 := by decide +kernel

/-- No slot is filled twice. -/
theorem nodup_slotsOf_range {n : Nat} (hn : n ≤ 256) : (slotsOf (List.range n)).Nodup := by
  refine List.Nodup.map_on (fun i hi j hj h => ?_) (List.nodup_range.filter _)
  have hin := List.mem_range.mp (List.mem_filter.mp hi).1
  have hjn := List.mem_range.mp (List.mem_filter.mp hj).1
  exact rev8_injOn (by omega) (by omega) h

/-- The counter values below n start with those below j, then j. -/
theorem slotsOf_range_eq_append {j n : Nat} (hj : j < n) (husable : rev8 j < 162) :
    ∃ rest, slotsOf (List.range n) = slotsOf (List.range j) ++ rev8 j :: rest := by
  obtain ⟨m, rfl⟩ := Nat.exists_eq_add_of_lt hj
  refine ⟨slotsOf (List.map (j + 1 + ·) (List.range m)), ?_⟩
  rw [show j + m + 1 = j + 1 + m by omega, List.range_add, List.range_succ]
  simp [slotsOf, husable]

/-- A usable counter value's slot has the place of that value among the usable ones (41_wspr_encoder.md R157). -/
theorem idxOf_rev8_slotsOf {j n : Nat} (hj : j < n) (hn : n ≤ 256) (husable : rev8 j < 162) :
    (slotsOf (List.range n)).idxOf (rev8 j) = usableBelow j := by
  obtain ⟨rest, hrest⟩ := slotsOf_range_eq_append hj husable
  have hnodup : (slotsOf (List.range j) ++ rev8 j :: rest).Nodup := hrest ▸ nodup_slotsOf_range hn
  have hnew : rev8 j ∉ slotsOf (List.range j) := fun h =>
    (List.nodup_append.mp hnodup).2.2 _ h _ List.mem_cons_self rfl
  rw [hrest, List.idxOf_append_of_notMem hnew, List.idxOf_cons_self, length_slotsOf_range, Nat.add_zero]

/-- The slot of a usable counter value holds the FEC bit that value places (41_wspr_encoder.md R157). -/
theorem getLsbD_interleave (fec : BitVec 162) {j : Nat} (hj : j < 255) (husable : rev8 j < 162) :
    (interleave fec).getLsbD (rev8 j) = fec.getLsbD (usableBelow j) := by
  have hfull : 0 + (slotsOf (List.range 255)).length ≤ 162 := by rw [length_slotsOf_range, usableBelow_255]
  have hmem : rev8 j ∈ slotsOf (List.range 255) :=
    List.mem_map_of_mem (List.mem_filter.mpr ⟨List.mem_range.mpr hj, decide_eq_true husable⟩)
  rw [interleave, interleaveFrom_getLsbD fec _ 0 _ _ (nodup_slotsOf_range (by decide)) hfull, if_pos hmem,
    idxOf_rev8_slotsOf hj (by decide) husable, Nat.zero_add]

/-- A usable counter value below 255 places one of the 162 FEC bits. -/
theorem usableBelow_lt {j : Nat} (hj : j < 255) (husable : rev8 j < 162) : usableBelow j < 162 := by
  obtain ⟨rest, hrest⟩ := slotsOf_range_eq_append hj husable
  have hlen := congrArg List.length hrest
  rw [length_slotsOf_range, usableBelow_255, List.length_append, length_slotsOf_range, List.length_cons] at hlen
  omega

/-- Every slot is filled by exactly one byte, its own reversal, which is not 255 (41_wspr_encoder.md R159). -/
theorem existsUnique_rev8_eq {r : Nat} (hr : r < 162) : ∃ j, j < 255 ∧ rev8 j = r ∧ ∀ i, i < 256 → rev8 i = r → i = j := by
  have hback : rev8 (rev8 r) = r := rev8_rev8 (by omega)
  have hlast : rev8 255 = 255 := by decide
  have hne : rev8 r ≠ 255 := fun h => by rw [h, hlast] at hback; omega
  have hbyte := rev8_lt r
  exact ⟨rev8 r, by omega, hback, fun i hi h => by rw [← h, rev8_rev8 hi]⟩

/-- Settles O31: the reversal is its own inverse on bytes, so the usable counter values below 255 fill the 162 slots once each. -/
theorem interleaverPlacement : Obligations.InterleaverPlacement := by
  unfold Obligations.InterleaverPlacement
  refine ⟨fun j _ => ⟨rev8_lt j, fun b hb => ?_⟩, fun fec _ => getLsbD_interleave fec, fun _ => existsUnique_rev8_eq,
    usableBelow_255, usableBelow_254, by decide, by decide⟩
  simp [testBit_rev8, show 7 - b < 8 by omega, show 7 - (7 - b) = b by omega]

/-! ### The symbols -/

/-- Symbol k as a number: the sync bit and twice the interleaved bit, with no carry lost (41_wspr_encoder.md R160). -/
theorem toNat_symbolAt_mergeSync (ilv : BitVec 162) {k : Nat} (hk : k < 162) :
    (symbolAt (mergeSync ilv) k).toNat = (syncBit k).toNat + 2 * (ilv.getLsbD k).toNat := by
  have hsum : ∀ (x : BitVec 1) (b : Bool),
      (x.setWidth 2 + 2 * (BitVec.ofBool b).setWidth 2).toNat = x.toNat + 2 * b.toNat := by decide
  rw [symbolAt_mergeSync ilv hk]
  exact hsum (syncBit k) (ilv.getLsbD k)

/-- Settles O32: a symbol is a sum without carry, and the table is finite. -/
theorem symbolsAndSync : Obligations.SymbolsAndSync := by
  unfold Obligations.SymbolsAndSync
  refine ⟨fun ilv k hk => ?_, by decide +kernel⟩
  have hbit : (syncBit k).toNat < 2 := (syncBit k).isLt
  have hsum := toNat_symbolAt_mergeSync ilv hk
  exact ⟨hsum, by omega⟩

/-! ### The whole encoder -/

/-- A bit given as the parity of a count, as a number. -/
theorem toNat_decide_mod_two (c : Nat) : (decide (c % 2 = 1)).toNat = c % 2 := by
  rcases Nat.mod_two_eq_zero_or_one c with h | h <;> simp [h]

/-- A successful WSPR_ENCODE leaves the results of legal operands (41_wspr_encoder.md R162). -/
theorem wenc_of_wsprEncode_ok {s t : State} (h : exec .wsprEncode s = .next t) (hok : t.lastErr = none) :
    ∃ c grid power, callClassesLegal c = true ∧ gridLegal grid = true ∧ powerLegal power = true ∧
      t.wenc = encodeLegal c grid power := by
  rw [exec_wsprEncode] at h
  cases he : wsprEncode s.codec.callLo s.codec.callHi s.codec.grid s.codec.power with
  | error e =>
    rw [he] at h
    cases h
    cases hok
  | ok w =>
    rw [he] at h
    cases h
    obtain ⟨c, hc, hg, hp, hw⟩ := wsprEncode_eq_ok he
    exact ⟨c, _, _, hc, hg, hp, hw⟩

/-- FEC bit i as a number: the parity of the input bits at the taps of POLY0 (i even) or POLY1 (i odd)
(41_wspr_encoder.md R153 to R156). -/
theorem toNat_getD_fecEncode (input : List Bool) {i : Nat} (hi : i < 2 * input.length) :
    ((fecEncode input).getD i false).toNat = (List.range 32).countP (fun b =>
      (if i % 2 = 0 then 0xF2D05351#32 else 0xE4613C47#32).getLsbD b && decide (b ≤ i / 2) && input.getD (i / 2 - b) false) % 2 := by
  obtain ⟨-, hbits, -⟩ := convolutionTaps input
  obtain ⟨hpoly0, hpoly1⟩ := hbits (i / 2) (by omega)
  rw [List.getD_eq_getElem?_getD]
  rcases Nat.mod_two_eq_zero_or_one i with h | h
  · rw [show 2 * (i / 2) = i by omega] at hpoly0
    rw [hpoly0, Option.getD_some, toNat_decide_mod_two, if_pos h]
  · rw [show 2 * (i / 2) + 1 = i by omega] at hpoly1
    rw [hpoly1, Option.getD_some, toNat_decide_mod_two, if_neg (by omega)]

/-- Input bit k: bit 49 - k of the 50 payload bits, then zeros (41_wspr_encoder.md R150 to R152). -/
theorem getD_inputBits_payload {n m : Nat} (hn : n < 2 ^ 28) (hm : m < 2 ^ 22) {k : Nat} (hk : k < 81) :
    (inputBits (payloadBytes (payload n m))).getD k false = (decide (k < 50) && (n * 2 ^ 22 + m).testBit (49 - k)) := by
  obtain ⟨-, -, -, -, hbits⟩ := payloadBitStream n m hn hm
  rw [List.getD_eq_getElem?_getD, hbits k hk, Option.getD_some]

/-- The FEC bits of a legal message are those of its input stream (41_wspr_encoder.md R155). -/
theorem fec_encodeLegal (c : Str6) (grid : Word) (power : Byte) : (encodeLegal c grid power).fec =
    bitsOf (fun k => (fecEncode (inputBits (payloadBytes
      (payload (packCall c) (packPower (packGrid grid) power))))).getD k false) 162 := by
  rw [encodeLegal]

/-- The interleaved bits of a legal message are its FEC bits interleaved (41_wspr_encoder.md R157). -/
theorem ilv_encodeLegal (c : Str6) (grid : Word) (power : Byte) :
    (encodeLegal c grid power).ilv = interleave (encodeLegal c grid power).fec := by
  rw [encodeLegal]

/-- The symbols of a legal message are its interleaved bits merged with SYNC (41_wspr_encoder.md R160). -/
theorem sym_encodeLegal (c : Str6) (grid : Word) (power : Byte) :
    (encodeLegal c grid power).sym = mergeSync (encodeLegal c grid power).ilv := by
  rw [encodeLegal]

/-- FEC bit i of a legal message, from N and M (41_wspr_encoder.md R150 to R156). -/
theorem toNat_getLsbD_fec_encodeLegal {c : Str6} {grid : Word} {power : Byte} (hc : callClassesLegal c = true)
    (hg : gridLegal grid = true) (hp : powerLegal power = true) {i : Nat} (hi : i < 162) :
    ((encodeLegal c grid power).fec.getLsbD i).toNat = (List.range 32).countP (fun b =>
      (if i % 2 = 0 then 0xF2D05351#32 else 0xE4613C47#32).getLsbD b && decide (b ≤ i / 2) && (decide (i / 2 - b < 50) &&
        (packCall c * 2 ^ 22 + packPower (packGrid grid) power).testBit (49 - (i / 2 - b)))) % 2 := by
  have hbit := getLsbD_bitsOf (fun k => (fecEncode (inputBits (payloadBytes
    (payload (packCall c) (packPower (packGrid grid) power))))).getD k false) 162 i
  rw [← fec_encodeLegal, decide_eq_true hi, Bool.true_and] at hbit
  rw [hbit, toNat_getD_fecEncode _ (by rw [length_inputBits]; omega)]
  refine congrArg (· % 2) (List.countP_congr fun b _ => ?_)
  rw [getD_inputBits_payload (packCall_lt hc) (packPower_lt (packGrid_lt hg) hp) (by omega)]

/-- Settles O33: the stages of the encoder on legal operands, composed. -/
theorem transmittedSymbols : Obligations.TransmittedSymbols := by
  unfold Obligations.TransmittedSymbols
  intro s t h hok
  obtain ⟨c, grid, power, hc, hg, hp, hw⟩ := wenc_of_wsprEncode_ok h hok
  rw [hw, toNat_packN_encodeLegal hc, toNat_packM_encodeLegal c hg hp]
  intro p bit poly tap index
  have hfec : ∀ i, i < 162 → ((encodeLegal c grid power).fec.getLsbD i).toNat = tap i := fun _ =>
    toNat_getLsbD_fec_encodeLegal hc hg hp
  have hilv : ∀ j, j < 255 → rev8 j < 162 →
      (encodeLegal c grid power).ilv.getLsbD (rev8 j) = (encodeLegal c grid power).fec.getLsbD (index j) := by
    rw [ilv_encodeLegal]
    exact fun _ => getLsbD_interleave _
  have hsym : ∀ k, k < 162 → (symbolAt (encodeLegal c grid power).sym k).toNat =
      (syncBit k).toNat + 2 * ((encodeLegal c grid power).ilv.getLsbD k).toNat := by
    rw [sym_encodeLegal]
    exact fun _ => toNat_symbolAt_mergeSync _
  refine ⟨hfec, hilv, hsym, fun j hj husable => ?_⟩
  rw [hsym _ husable, hilv j hj husable, hfec (index j) (usableBelow_lt hj husable)]

end Sys2Proof.Machine
end
